-- ==== Sys2Proof/Word.lean ====
section
/-! DEFINITION. The word types of the machine: registers of 64 bits (R20), bytes, physical addresses of 40 bits
(R100), instruction words of 32 bits (R170). -/

namespace Sys2Proof

/-- A general register, a floating-point register, a virtual address: 64 bits (R20, R24, R21). -/
abbrev Word := BitVec 64

/-- The smallest addressable unit of memory. -/
abbrev Byte := BitVec 8

/-- A physical address: 40 bits (R100). -/
abbrev PAddr := BitVec 40

/-- An instruction word (R170). -/
abbrev IWord := BitVec 32

/-- The number of a general register or of a floating-point register (R20, R24). -/
abbrev Reg := BitVec 5

/-- The number of a floating-point condition code (R27). -/
abbrev CC := BitVec 3

end Sys2Proof
end

