-- ==== Sys2Proof/Config.lean ====
section
/-! DEFINITION. What an implementation fixes and what the spec leaves open: the parameters of 93_implementation_defined.md
section 2, and the free values of its section 1, as opaque constants that nothing can evaluate (log 12, 51). -/

namespace Sys2Proof

/-- The places where the spec leaves a value or a choice open. Each use of a free value names its place, so that two
different open points are never the same value. -/
inductive FreeSite where
  /-- U19, R220: a word operation on an operand that is not a sign-extended word. -/
  | wordOperand
  /-- U19, U20: HI after a divide corner, or after a word operation on an operand that is not a sign-extended word. -/
  | divideHi
  /-- U19, U20: LO after a divide corner, or after a word operation on an operand that is not a sign-extended word. -/
  | divideLo
  /-- U21: HI after MTLO that follows a multiply or divide (R279). -/
  | hiAfterMtlo
  /-- U21: LO after MTHI that follows a multiply or divide (R279). -/
  | loAfterMthi
  /-- U22: whether LWR sign extends or keeps the upper half (R307). -/
  | lwrUpper
  /-- U24: the upper half of an FPR after a 32-bit result (R401). -/
  | fprUpper
  /-- U24: an FPR read in another format than it was written in, for the n-th operand of the instruction (R401). -/
  | fprFormat (operand : Nat)
  /-- U27: the payload of a NaN (R419). -/
  | nanPayload
  /-- U25: the error of RECIP within its bound (R409). -/
  | recipError
  /-- U25: the error of RSQRT within its bound (R410). -/
  | rsqrtError
  /-- U25: whether an approximate result raises Inexact (R409, R410). -/
  | recipInexact
  /-- The sign of the infinity that RSQRT delivers for minus zero (R410). -/
  | rsqrtZeroSign
  /-- U26: the integer delivered by an out-of-range conversion (R432). -/
  | convertRange
  /-- U29: FSR.Cause after an arithmetic instruction in precise mode (R417). -/
  | fsrCause
  /-- U28: whether a result that rounds up to the smallest normal number is flushed (R418). -/
  | roundUpToNormal
  /-- U28: whether a compare flushes its n-th operand when that is denormal (R440). -/
  | compareFlush (operand : Nat)
  /-- U28: whether a compare of denormals raises E in precise mode with FS = 0 (R440). -/
  | compareE
  /-- U18: a condition code read in the instruction after the compare (R670). -/
  | fccHazard
  /-- U8: a read of a reserved floating-point control register (R484). -/
  | reservedFcr
  /-- U6: a read of a reserved coprocessor-0 register (R29). -/
  | reservedCop0
  /-- U13: TLBSet.SET after an unsuccessful probe (R524). -/
  | probeSet
  /-- U43: the set a refill selects (R136). -/
  | refillSet
  /-- U14: EntryLo after a refill exception (R134). -/
  | refillEntryLo
  /-- U40: Cause.CE after an exception other than Coprocessor Unusable (R580). -/
  | causeCe
  /-- U15: physical address bits where PFN bits below the page size are not zero (R130). -/
  | pfnLow
  /-- U39: a datum stored in one byte order and loaded in the other (R124). -/
  | mixedOrder
  /-- D23: whether SC fails although LLbit is set (R324). -/
  | scFail
  /-- U44: whether a pending interrupt is taken before this instruction (R594). -/
  | interrupt
  /-- U44: whether a requested NMI is taken before this instruction (R642). -/
  | nmi
  /-- U44: how many of the detected virtual coherence violations are posted before this instruction (R596). -/
  | vci
  /-- U44: whether the CPU sees the floating-point interrupt condition change (R597). -/
  | fpi
  /-- U44: the cycles an instruction takes, less one (R598). -/
  | cycles
  /-- Whether the IASID of an I-cache line is compared for a KV1 or KP address (R152). -/
  | iasidCompared
  /-- The valid bits of a D-cache line filled by a miss (R56, R153). -/
  | fillValid
  /-- The exclusive bit of a D-cache line filled by a miss (R56). -/
  | fillExclusive
  /-- U33: DCache.H after DCTR (R527). -/
  | dctrHit
  /-- Whether the streaming cache has lost a sector since its last use (R58). -/
  | sectorReplaced
  /-- Whether an instruction fetch repairs the virtual synonym of a sector held under another one (R152, R154). -/
  | fetchSynonym
  /-- U4: what a data access finds at a half line of the D-cache that no DCTW has written since reset (R153, R644). -/
  | dcacheUnwritten
  /-- A byte at a physical address where no memory is (R108, R599). -/
  | unbacked (addr : Nat)
  /-- R154, R596: whether a floating-point store reaches a synonym's word in the D-cache with SMM = 0. -/
  | synonymCleared
  /-- The late effect of a write to Status, for its n-th field in the order of R40 (R667). -/
  | lateStatus (field : Nat)
  /-- The late effect of a write to TrapBase (R668). -/
  | lateTrapBase
  /-- The late effect of a write to Config (R668). -/
  | lateConfig
  /-- The late effect of a write to ICache (R668). -/
  | lateIasid
  /-- The late effect of a write to Wired (R668). -/
  | lateWired
  /-- The late effect of a write to Counts (R668). -/
  | lateCounts
  /-- The late effect of a write to Cause (R668). -/
  | lateCause
  deriving DecidableEq, Repr

/-- Which rows of the hazard table the model applies (HAZARD_POLICY, D39, R668). -/
inductive HazardPolicy where
  /-- The whole of the table. -/
  | table
  /-- Without the rows of Table B-1 whose count exceeds the prose latency. -/
  | prose
  deriving DecidableEq, Repr

/-- A free bit at a place, for the n-th draw (log 12). -/
opaque Config.freeBool : FreeSite → Nat → Bool

/-- A free 64-bit value at a place, for the n-th draw (log 12). -/
opaque Config.freeWord : FreeSite → Nat → Word

/-- A free integer at a place, for the n-th draw (log 12). -/
opaque Config.freeInt : FreeSite → Nat → Int

/-- A free natural number at a place, for the n-th draw (log 12). -/
opaque Config.freeNat : FreeSite → Nat → Nat

/-- PRID_VALUE (R46, log 51). -/
opaque Config.pridValue : Word

/-- FCONFIG_IMP (R53, log 51). -/
opaque Config.fconfigImp : BitVec 8

/-- FCONFIG_REV (R53, log 51). -/
opaque Config.fconfigRev : BitVec 8

/-- RECIP_ULP, as a free number that `Config.recipUlp` brings into its range (R409, log 51). -/
opaque Config.recipUlpFree : Nat

/-- RECIP_ULP: the error bound of RECIP in units in the last place, 1 to 65536 (R409, log 51). -/
def Config.recipUlp : Nat := 1 + Config.recipUlpFree % 65536

/-- RSQRT_ULP, as a free number that `Config.rsqrtUlp` brings into its range (R410, log 51). -/
opaque Config.rsqrtUlpFree : Nat

/-- RSQRT_ULP: the error bound of RSQRT in units in the last place, 1 to 65536 (R410, log 51). -/
def Config.rsqrtUlp : Nat := 1 + Config.rsqrtUlpFree % 65536

/-- FP_DM_WAIT: instructions after a change of Status.DM that may not be floating point (R671, log 51). -/
opaque Config.fpDmWait : Nat

/-- HAZARD_POLICY, at the spec's default (D39, log 46). -/
def Config.hazardPolicy : HazardPolicy := .table

/-- FP_FLUSH_FLAGS for a flushed result, in the order V Z O U I (R7, R418, log 22); the spec proposes U and I. -/
opaque Config.flushResultFlags : BitVec 5

/-- FP_FLUSH_FLAGS for a flushed operand (R7, R418, log 22); the spec proposes none. -/
opaque Config.flushOperandFlags : BitVec 5

/-- TLBSET_P_BIT, as a free number that `Layout.tlbSetP` turns into a position (R7, R31, log 2). -/
opaque Config.tlbSetPBit : Nat

/-- CONFIG_PM_BIT, as a free number that `Layout.configPm` turns into a position (R7, R47, log 2). -/
opaque Config.configPmBit : Nat

/-- CONFIG_ICE_BIT, as a free number that `Layout.configIce` turns into a position (R7, R47, log 2). -/
opaque Config.configIceBit : Nat

/-- CONFIG_SMM_BIT, as a free number that `Layout.configSmm` turns into a position (R7, R47, log 2). -/
opaque Config.configSmmBit : Nat

/-- ENC_TLBW, at the spec's placeholder (R7, R178, log 14). -/
def Config.encTlbw : BitVec 6 := 0b000010#6

/-- ENC_DCTR, at the spec's placeholder (R7, R178, log 14). -/
def Config.encDctr : BitVec 6 := 0b000100#6

/-- ENC_DCTW, at the spec's placeholder (R7, R178, log 14). -/
def Config.encDctw : BitVec 6 := 0b000101#6

end Sys2Proof
end

