-- ==== Sys2Proof/Machine/CMap.lean ====
section
/-! DEFINITION. Sparse tables in one canonical form: a list of key and value pairs, keys strictly rising, no entry equal
to what an unlisted key reads as. Memory, the TLB and the caches are held in it. -/

namespace Sys2Proof.Machine

/-- The value at a key: the first listed one, or what an unlisted key reads as. -/
def CMap.get {α : Type} (d : Nat → α) : List (Nat × α) → Nat → α
  | [], k => d k
  | (a, v) :: m, k => if a = k then v else CMap.get d m k

/-- The table without a key. -/
def CMap.erase {α : Type} : List (Nat × α) → Nat → List (Nat × α)
  | [], _ => []
  | (a, v) :: m, k => if a = k then CMap.erase m k else (a, v) :: CMap.erase m k

/-- The table with an entry put before the first greater key. -/
def CMap.insert {α : Type} : List (Nat × α) → Nat → α → List (Nat × α)
  | [], k, v => [(k, v)]
  | (a, w) :: m, k, v => if k < a then (k, v) :: (a, w) :: m else (a, w) :: CMap.insert m k v

/-- The table with a new value at a key; writing what an unlisted key reads as removes the entry. -/
def CMap.set {α : Type} [DecidableEq α] (d : Nat → α) (m : List (Nat × α)) (k : Nat) (v : α) : List (Nat × α) :=
  if v = d k then CMap.erase m k else CMap.insert (CMap.erase m k) k v

/-- The canonical form: keys strictly rising, no entry equal to what its key reads as when unlisted. -/
def CMap.wf {α : Type} [DecidableEq α] (d : Nat → α) : List (Nat × α) → Bool
  | [] => true
  | [(a, v)] => decide (v ≠ d a)
  | (a, v) :: (b, w) :: m => decide (v ≠ d a) && decide (a < b) && CMap.wf d ((b, w) :: m)

end Sys2Proof.Machine
end

