-- ==== Sys2Proof/Machine/Bits.lean ====
section
/-! DEFINITION. Bit fields of 64-bit words, sign and zero extension, and the splitting of words into bytes (R173, R124). -/

namespace Sys2Proof.Machine

/-- A one-bit field as a word with that bit in its place. -/
def placeBit (b : Bool) (pos : Nat) : Word := (BitVec.ofBool b).setWidth 64 <<< pos

/-- A field put in its place in a word that is otherwise zero. -/
def placeField {n : Nat} (v : BitVec n) (pos : Nat) : Word := v.setWidth 64 <<< pos

/-- The sign extension of the low word: the canonical form of a 32-bit value (R220). -/
def sext32 (w : BitVec 32) : Word := w.signExtend 64

/-- The sign extension of a 16-bit immediate or offset (R173). -/
def sext16 (i : BitVec 16) : Word := i.signExtend 64

/-- The zero extension of a 16-bit immediate (R173). -/
def zext16 (i : BitVec 16) : Word := i.setWidth 64

/-- The low word of a register. -/
def lowWord (w : Word) : BitVec 32 := w.setWidth 32

/-- The high word of a register. -/
def highWord (w : Word) : BitVec 32 := w.extractLsb' 32 32

/-- The n low bytes of a value, most significant first (R123, R124). -/
def bytesOf : Nat → Word → List Byte
  | 0, _ => []
  | n + 1, v => v.extractLsb' (8 * n) 8 :: bytesOf n v

/-- The value whose bytes are given most significant first. -/
def ofBytes (bs : List Byte) : Word := bs.foldl (fun acc b => acc <<< 8 ||| b.setWidth 64) 0

/-- The bytes of an n-byte datum in address order, for a byte order (R124). -/
def storedBytes (bigEndian : Bool) (n : Nat) (v : Word) : List Byte :=
  if bigEndian then bytesOf n v else (bytesOf n v).reverse

/-- The value of bytes read in address order, for a byte order (R124). -/
def loadedValue (bigEndian : Bool) (bs : List Byte) : Word :=
  if bigEndian then ofBytes bs else ofBytes bs.reverse

end Sys2Proof.Machine
end

