-- ==== Sys2Proof/Machine/Layout.lean ====
section
/-! DEFINITION. The layout record (D3): where each register field stands whose position the spec leaves as a layout
parameter or states. Positions marked `source` or `derived` in 10_state.md are the spec's; the others are its proposed
positions (PRESUMED, log 1), or the model's own where it proposes none (DESIGN CHOICE, log 2). The four positions that R7
names as parameters are free (log 2). -/

namespace Sys2Proof.Machine

/-- TLBSet.P, TLBSET_P_BIT: any bit above SET (R7, R31; free, log 2). -/
def Layout.tlbSetP : Nat := 2 + Config.tlbSetPBit % 62
/-- EntryLo.PFN (R32; proposed). -/
def Layout.entryLoPfn : Nat := 12
/-- EntryLo.C (R32; proposed). -/
def Layout.entryLoC : Nat := 9
/-- EntryLo.D (R32; proposed). -/
def Layout.entryLoD : Nat := 8
/-- EntryLo.V (R32; proposed). -/
def Layout.entryLoV : Nat := 7
/-- EntryHi.ASID (R39; proposed). -/
def Layout.entryHiAsid : Nat := 4
/-- Status.IE (R40; proposed). -/
def Layout.statusIe : Nat := 0
/-- Status.EXL (R40; source). -/
def Layout.statusExl : Nat := 1
/-- Status.KU (R40; proposed). -/
def Layout.statusKu : Nat := 4
/-- Status.UX (R40; proposed). -/
def Layout.statusUx : Nat := 5
/-- Status.XX (R40; proposed). -/
def Layout.statusXx : Nat := 6
/-- Status.IM (R40; proposed). -/
def Layout.statusIm : Nat := 8
/-- Status.RE (R40; proposed). -/
def Layout.statusRe : Nat := 25
/-- Status.FR (R40; source). -/
def Layout.statusFr : Nat := 26
/-- Status.CU0 (R40; derived). -/
def Layout.statusCu0 : Nat := 28
/-- Status.CU1 (R40; source). -/
def Layout.statusCu1 : Nat := 29
/-- Status.UPS (R40; source). -/
def Layout.statusUps : Nat := 32
/-- Status.KPS (R40; source). -/
def Layout.statusKps : Nat := 36
/-- Status.DM (R40; proposed). -/
def Layout.statusDm : Nat := 40
/-- Cause.BD (R42; source). -/
def Layout.causeBd : Nat := 63
/-- Cause.CE (R42; proposed). -/
def Layout.causeCe : Nat := 28
/-- Cause.NMI (R42; source). -/
def Layout.causeNmi : Nat := 27
/-- Cause.BE (R42; proposed). -/
def Layout.causeBe : Nat := 26
/-- Cause.VCI (R42; proposed). -/
def Layout.causeVci : Nat := 25
/-- Cause.FPI (R42; proposed). -/
def Layout.causeFpi : Nat := 24
/-- Cause.IP (R42; source). -/
def Layout.causeIp : Nat := 8
/-- Cause.ExcCode (R42; source). -/
def Layout.causeExcCode : Nat := 3
/-- Config.DB (R47; proposed). -/
def Layout.configDb : Nat := 4
/-- Config.IB (R47; proposed). -/
def Layout.configIb : Nat := 5
/-- Config.DC (R47; proposed). -/
def Layout.configDc : Nat := 6
/-- Config.IC (R47; proposed). -/
def Layout.configIc : Nat := 9
/-- Config.BE (R47; proposed). -/
def Layout.configBe : Nat := 15
/-- The bits of Config that belong to none of DB, IB, DC, IC and BE. -/
def Layout.configSpare : List Nat := [0, 1, 2, 3, 12, 13, 14] ++ (List.range 48).map (16 + ·)
/-- The position that a free number picks from a list of positions. -/
def Layout.pick (ps : List Nat) (n : Nat) : Nat := ps.getD (n % ps.length) 0
/-- Config.PM, CONFIG_PM_BIT: any spare bit (R7, R47; free, log 2). -/
def Layout.configPm : Nat := Layout.pick Layout.configSpare Config.configPmBit
/-- Config.ICE, CONFIG_ICE_BIT: any spare bit but that of PM (R7, R47; free, log 2). -/
def Layout.configIce : Nat := Layout.pick (Layout.configSpare.erase Layout.configPm) Config.configIceBit
/-- Config.SMM, CONFIG_SMM_BIT: any spare bit but those of PM and ICE (R7, R47; free, log 2). -/
def Layout.configSmm : Nat :=
  Layout.pick ((Layout.configSpare.erase Layout.configPm).erase Layout.configIce) Config.configSmmBit
/-- DCache.E (R50; DESIGN CHOICE, log 2). -/
def Layout.dCacheE : Nat := 0
/-- DCache.V (R50; DESIGN CHOICE, log 2). -/
def Layout.dCacheV : Nat := 4
/-- DCache.TAG (R50; DESIGN CHOICE, log 2). -/
def Layout.dCacheTag : Nat := 12
/-- DCache.H (R50; DESIGN CHOICE, log 2). -/
def Layout.dCacheH : Nat := 63
/-- ICache.IASID (R51; DESIGN CHOICE, log 2). -/
def Layout.iCacheIasid : Nat := 0
/-- BadPAddr.BadPAddr (R36; DESIGN CHOICE, log 2). -/
def Layout.badPAddrAddr : Nat := 0
/-- BadPAddr.Syn (R36; DESIGN CHOICE, log 2). -/
def Layout.badPAddrSyn : Nat := 40
/-- FConfig Implementation (R53; proposed). -/
def Layout.fConfigImp : Nat := 8
/-- FConfig Revision (R53; proposed). -/
def Layout.fConfigRev : Nat := 0
/-- FSR.FCC[7:1] (R54; proposed). -/
def Layout.fsrFccHigh : Nat := 25
/-- FSR.FS (R54; proposed). -/
def Layout.fsrFs : Nat := 24
/-- FSR.FCC[0] (R54; proposed). -/
def Layout.fsrFccLow : Nat := 23
/-- FSR.E (R54; proposed). -/
def Layout.fsrE : Nat := 17
/-- FSR Cause V Z O U I (R54; proposed). -/
def Layout.fsrCause : Nat := 12
/-- FSR Enable V Z O U I (R54; proposed). -/
def Layout.fsrEnable : Nat := 7
/-- FSR Flags V Z O U I (R54; proposed). -/
def Layout.fsrFlags : Nat := 2
/-- FSR.RM (R54; proposed). -/
def Layout.fsrRm : Nat := 0

end Sys2Proof.Machine
end

