-- ==== Sys2Proof/Machine/State.lean ====
section
/-! DEFINITION. The state of the machine, its reset value, and the reasons a step can stop. Everything the spec gives
the machine is here as plain data (INVENTORY.md, State). -/

namespace Sys2Proof.Machine

/-- Why the machine stops: conditions for which the spec defines no next state and calls the result a fault of the model. -/
inductive Fault where
  /-- More than one set of a TLB class matches an address (R135, R574, D18). Raised by a translation or a probe. Safe. -/
  | tlbMultipleMatch
  deriving DecidableEq, Repr

/-- Why the model makes no claim about the next state. -/
inductive Refusal where
  /-- An instruction with no meaning in the model. Raised by no arm: every instruction has its meaning. Safe. -/
  | notModelled (mnemonic : String)
  /-- A pair of instructions closer than the hazard table allows (R660, R668, U17). Raised by `step`. Safe. -/
  | hazardViolation
  /-- A jump, branch or ERET in a delay slot (R340, U23). Raised by those instructions. Safe. -/
  | transferInDelaySlot
  /-- JALR with rd = rs, or a branch-and-link with rs = r31 (R345, R358, U23). Raised by those instructions. Safe. -/
  | linkSourceRegister
  /-- An odd register as a 64-bit or arithmetic operand with Status.FR = 0 (R26, U31). Raised by floating-point instructions. Safe. -/
  | oddFprPair
  /-- A reserved UPS or KPS value in force at a translation (R41, U10). Raised by translations and TLB instructions. Safe. -/
  | reservedPageSize
  /-- A reserved C value in a matched TLB entry (R150, U11). Raised by translations. Safe. -/
  | reservedCoherence
  /-- TLBSet.SET = 3 at TLBR or TLBW (R525, R526, U12). Raised by those instructions. Safe. -/
  | reservedTlbSet
  /-- TLBP, TLBR or TLBW with a kernel-physical address in VAddr (R530, U32). Raised by those instructions. Safe. -/
  | physicalTlbIndex
  /-- LL, LLD, SC or SCD of an uncached address (R324, D23, U37). Raised by those instructions. Safe. -/
  | uncachedLink
  /-- SC or SCD with no LL or LLD before it, or of another address, size or attribute (R324, D23, U37). Raised by those
  instructions. Safe. -/
  | unmatchedConditional
  /-- A prefetch of an address that passes the region comparison and is illegal (R157, R330, D29, U36). Raised by PREF and
  PFETCH. Safe. -/
  | prefetchAddress
  /-- A DMTC0 to Status with a non-zero reserved bit (R30, U9). Raised by DMTC0. Safe. -/
  | statusReservedWrite
  deriving DecidableEq, Repr

/-- TLBSet, register 0 (R31). -/
structure TlbSetReg where
  /-- The last TLBP was unsuccessful. -/
  p : Bool
  /-- The selected set. -/
  set : BitVec 2
  deriving DecidableEq, Repr

/-- The physical half of a TLB entry, and EntryLo, register 2 (R32, R55). -/
structure TlbLo where
  /-- Physical frame number, PA[39:12]. -/
  pfn : BitVec 28
  /-- Coherence algorithm. -/
  c : BitVec 3
  /-- Dirty: writable. -/
  d : Bool
  /-- Valid. -/
  v : Bool
  deriving DecidableEq, Repr

/-- The virtual half of a TLB entry, and EntryHi, register 10 (R39, R55). -/
structure TlbHi where
  /-- Region. -/
  r : BitVec 2
  /-- VA[47:19]. -/
  vpn : BitVec 29
  /-- Address space identifier. -/
  asid : BitVec 8
  deriving DecidableEq, Repr

/-- One TLB entry (R55). -/
structure TlbEntry where
  hi : TlbHi
  lo : TlbLo
  deriving DecidableEq, Repr

/-- TrapBase, register 6 (R35). -/
structure TrapBaseReg where
  r : BitVec 2
  c : BitVec 3
  base : BitVec 36
  deriving DecidableEq, Repr

/-- BadPAddr, register 7 (R36); also the address that a detected violation would load into it (R596). -/
structure BadPAddrReg where
  addr : PAddr
  /-- Bits [15:12] of the virtual address. -/
  syn : BitVec 4
  deriving DecidableEq, Repr

/-- Status, register 12 (R40). -/
structure StatusReg where
  ie : Bool
  exl : Bool
  ku : Bool
  ux : Bool
  xx : Bool
  im : BitVec 11
  re : Bool
  fr : Bool
  cu0 : Bool
  cu1 : Bool
  ups : BitVec 4
  kps : BitVec 4
  dm : Bool
  deriving DecidableEq, Repr

/-- The storage bits of Cause, register 13 (R42, R43): IP10 is Counts[31] and FPI follows the FSR, so neither is here. -/
structure CauseReg where
  bd : Bool
  ce : BitVec 2
  nmi : Bool
  be : Bool
  vci : Bool
  /-- IP[9:0]. -/
  ip : BitVec 10
  excCode : BitVec 5
  deriving DecidableEq, Repr

/-- The writable fields of Config, register 16 (R47). -/
structure ConfigReg where
  be : Bool
  pm : Bool
  ice : Bool
  smm : Bool
  deriving DecidableEq, Repr

/-- One pair of Wired, register 24 (R49). -/
structure WiredPair where
  index : BitVec 7
  v : Bool
  deriving DecidableEq, Repr

/-- DCache, register 28 (R50). -/
structure DCacheReg where
  h : Bool
  tag : BitVec 28
  v : BitVec 4
  e : Bool
  deriving DecidableEq, Repr

/-- The coprocessor-0 registers (R28 to R51). PRId is a parameter (`Config.pridValue`), and reserved numbers have no
storage (R29). -/
structure Cop0 where
  tlbSet : TlbSetReg
  entryLo : TlbLo
  uBase : Word
  pBase : Word
  gBase : Word
  /-- ShiftAmt.SA (R34). -/
  shiftAmt : BitVec 5
  trapBase : TrapBaseReg
  badPAddr : BadPAddrReg
  vAddr : Word
  /-- Counts.Cycles (R38). -/
  counts : BitVec 32
  entryHi : TlbHi
  status : StatusReg
  cause : CauseReg
  epc : Word
  config : ConfigReg
  work0 : Word
  work1 : Word
  wired : Vector WiredPair 4
  dCache : DCacheReg
  /-- ICache.IASID (R51). -/
  iasid : BitVec 8
  deriving DecidableEq, Repr

/-- The floating-point status register, FP control register 31 (R54). The exception groups hold V Z O U I in bits 4 to 0. -/
structure Fsr where
  fcc : BitVec 8
  fs : Bool
  e : Bool
  cause : BitVec 5
  enable : BitVec 5
  flags : BitVec 5
  rm : BitVec 2
  deriving DecidableEq, Repr

/-- The access of a load that linked, which a conditional store must match (R324, D23, log 44). -/
structure LinkedAccess where
  /-- The virtual address, in the one form that both forms of a KV1 address have (R105). -/
  va : Word
  pa : PAddr
  /-- Coherence attribute. -/
  c : BitVec 3
  /-- Size. -/
  bytes : Nat
  deriving DecidableEq, Repr

/-- The format in which a floating-point register was last written (R401, log 20). -/
inductive FprTag where
  /-- By a load or a move: plain bits, read in any format. -/
  | plain
  /-- By an operation with a single result. -/
  | single
  /-- By an operation with a double result. -/
  | double
  /-- By a conversion to a 32-bit integer. -/
  | fixedW
  /-- By a conversion to a 64-bit integer. -/
  | fixedL
  deriving DecidableEq, Repr

/-- One line of the instruction cache (R57). The tag is VA[63:14] of the line's address (log 41). -/
structure ICacheLine where
  valid : Bool
  tag : BitVec 50
  iasid : BitVec 8
  words : Vector IWord 8
  deriving DecidableEq, Repr

/-- One line of the data cache (R56): valid bit i belongs to the word at byte offset 4i. -/
structure DCacheLine where
  tag : BitVec 28
  exclusive : Bool
  valid : BitVec 8
  data : Vector Byte 32
  deriving DecidableEq, Repr

/-- What stands at a physical address (R108). -/
inductive PhysKind where
  | ram
  | rom
  | device
  /-- Nothing answers there. -/
  | nothing
  deriving DecidableEq, Repr

/-- A part of the physical map: `size` addresses from `base` on (R108). -/
structure PhysRegion where
  base : Nat
  size : Nat
  kind : PhysKind
  deriving DecidableEq, Repr

/-- What arrives over the TBus between two instructions (R595, R156, R600, R640; log 30). -/
inductive BusEvent where
  /-- Nothing. -/
  | idle
  /-- An interrupt status transfer (R595). -/
  | interruptStatus (ipEn nmiEn beEn : Bool) (ip : BitVec 6) (nmi be : Bool)
  /-- Invalidate Data Cache, for the line with this index (R156). -/
  | invalidateDCache (line : BitVec 9)
  /-- A parity error in the even or the odd bank of the streaming cache (R600). -/
  | parityError (odd : Bool)
  /-- RESET_ is asserted (R640). -/
  | hardReset
  deriving DecidableEq, Repr

/-- The instructions that take part in the hazard table (R668). -/
inductive HazardKind where
  | dmfc0
  /-- A DMTC0, with the number of the register written. -/
  | dmtc0 (rd : Reg)
  /-- A linking jump or branch. -/
  | link
  | tlbr
  | tlbw
  | tlbp
  | dctr
  | dctw
  /-- A store of the integer stream. -/
  | intStore
  /-- A DMTC0 to Status that changed UPS or KPS. -/
  | pageSizeChange
  /-- A DMTC0 to EntryHi that changed ASID. -/
  | asidChange
  /-- A DMTC0 to Status that changed DM. -/
  | dmChange
  deriving DecidableEq, Repr

/-- A hazard-relevant instruction that was executed, and what followed it. -/
structure HazardEntry where
  kind : HazardKind
  /-- SSNOPs executed since. -/
  ssnops : Nat
  /-- Instructions executed since. -/
  insns : Nat
  deriving DecidableEq, Repr

/-- The value a register had before a DMTC0 whose effect may be late, and the SSNOPs until it no longer may be
(R667, R668; log 47). -/
structure LateReg (α : Type) where
  old : α
  left : Nat
  deriving DecidableEq, Repr

/-- The open windows of late effects (R667, R668; log 47). -/
structure Late where
  status : Option (LateReg StatusReg)
  trapBase : Option (LateReg TrapBaseReg)
  config : Option (LateReg ConfigReg)
  iasid : Option (LateReg (BitVec 8))
  wired : Option (LateReg (Vector WiredPair 4))
  /-- The old IP10, which is Counts[31]. -/
  counts : Option (LateReg Bool)
  cause : Option (LateReg CauseReg)
  deriving DecidableEq, Repr

/-- No window open. -/
def Late.closed : Late := ⟨.none, .none, .none, .none, .none, .none, .none⟩

/-- The machine. Each field's rule and reset value stand in INVENTORY.md, State. -/
structure State where
  gpr : Vector Word 32
  pc : Word
  npc : Word
  inSlot : Bool
  hi : Word
  lo : Word
  hiloBusy : Bool
  llbit : Bool
  linked : Option LinkedAccess
  fpr : Vector Word 32
  fprTag : Vector FprTag 32
  fsr : Fsr
  fccBusy : BitVec 8
  cp0 : Cop0
  tlb : List (Nat × TlbEntry)
  icache : List (Nat × ICacheLine)
  dcache : List (Nat × DCacheLine)
  dcacheWritten : List (Nat × Bool)
  scache : List (Nat × Option (BitVec 4))
  physMap : List PhysRegion
  mem : List Host.Cell
  byteOrder : List (Nat × Option Bool)
  fpiSeen : Bool
  vciPending : List (Option BadPAddrReg)
  nmiPending : Bool
  inputs : List BusEvent
  hazards : List HazardEntry
  late : Late
  draws : Nat
  deriving DecidableEq, Repr

/-- The address of the first instruction after reset and after an NMI (R640, R642). -/
def resetVector : Word := 0x900000001fc00000#64

/-- The coprocessor-0 registers after reset: Config as the spec states it (R47), Cause.NMI = 0 (R70), the rest DESIGN
CHOICE (log 4, 5). -/
def Cop0.reset : Cop0 where
  tlbSet := ⟨false, 0⟩
  entryLo := ⟨0, 0, false, false⟩
  uBase := 0
  pBase := 0
  gBase := 0
  shiftAmt := 0
  trapBase := ⟨0, 0, 0⟩
  badPAddr := ⟨0, 0⟩
  vAddr := 0
  counts := 0
  entryHi := ⟨0, 0, 0⟩
  status :=
    { ie := false, exl := false, ku := false, ux := false, xx := false, im := 0, re := false, fr := false,
      cu0 := false, cu1 := false, ups := 0, kps := 0, dm := false }
  cause := { bd := false, ce := 0, nmi := false, be := false, vci := false, ip := 0, excCode := 0 }
  epc := 0
  config := { be := true, pm := false, ice := true, smm := true }
  work0 := 0
  work1 := 0
  wired := Vector.replicate 4 ⟨0, false⟩
  dCache := ⟨false, 0, 0, false⟩
  iasid := 0

/-- The physical map at reset: a boot ROM at the reset vector, as R108 says there must be; its size is the model's, and every
address in no region is RAM (DESIGN CHOICE, log 11). -/
def physMapReset : List PhysRegion := [⟨0x1fc00000, 0x100000, .rom⟩]

/-- The machine right after a hard reset (R70, R640). What the spec states is stated by it; every other register is 0
(DESIGN CHOICE, logs 3 to 10). -/
def State.reset : State where
  gpr := Vector.replicate 32 0
  pc := resetVector
  npc := resetVector + 4
  inSlot := false
  hi := 0
  lo := 0
  hiloBusy := false
  llbit := false
  linked := none
  fpr := Vector.replicate 32 0
  fprTag := Vector.replicate 32 .plain
  fsr := { fcc := 0, fs := false, e := false, cause := 0, enable := 0, flags := 0, rm := 0 }
  fccBusy := 0
  cp0 := Cop0.reset
  tlb := []
  icache := []
  dcache := []
  dcacheWritten := []
  scache := []
  physMap := physMapReset
  mem := []
  byteOrder := []
  fpiSeen := false
  vciPending := []
  nmiPending := false
  inputs := []
  hazards := []
  late := Late.closed
  draws := 0

end Sys2Proof.Machine
end

