-- ==== Sys2Proof/Machine/Images.lean ====
section
/-! DEFINITION. The register images: each coprocessor-0 and floating-point control register as the word that software
reads, and the fields a written word gives it (R28 to R54). Bits in no field read as 0 (R30). -/

namespace Sys2Proof.Machine

/-- TLBSet as a word (R31). -/
def TlbSetReg.image (r : TlbSetReg) : Word := placeBit r.p Layout.tlbSetP ||| placeField r.set 0

/-- TLBSet from a word (R31). -/
def TlbSetReg.ofWord (w : Word) : TlbSetReg := ⟨w.getLsbD Layout.tlbSetP, w.extractLsb' 0 2⟩

/-- EntryLo as a word (R32). -/
def TlbLo.image (r : TlbLo) : Word :=
  placeField r.pfn Layout.entryLoPfn ||| placeField r.c Layout.entryLoC |||
    placeBit r.d Layout.entryLoD ||| placeBit r.v Layout.entryLoV

/-- EntryLo from a word (R32). -/
def TlbLo.ofWord (w : Word) : TlbLo :=
  ⟨w.extractLsb' Layout.entryLoPfn 28, w.extractLsb' Layout.entryLoC 3,
    w.getLsbD Layout.entryLoD, w.getLsbD Layout.entryLoV⟩

/-- EntryHi as a word: R in [63:62], VPN in [47:19] (R39). -/
def TlbHi.image (r : TlbHi) : Word :=
  placeField r.r 62 ||| placeField r.vpn 19 ||| placeField r.asid Layout.entryHiAsid

/-- EntryHi from a word (R39). -/
def TlbHi.ofWord (w : Word) : TlbHi :=
  ⟨w.extractLsb' 62 2, w.extractLsb' 19 29, w.extractLsb' Layout.entryHiAsid 8⟩

/-- TrapBase as a word: R in [63:62], C in [61:59], Base in [47:12] (R35). -/
def TrapBaseReg.image (r : TrapBaseReg) : Word :=
  placeField r.r 62 ||| placeField r.c 59 ||| placeField r.base 12

/-- TrapBase from a word (R35). -/
def TrapBaseReg.ofWord (w : Word) : TrapBaseReg :=
  ⟨w.extractLsb' 62 2, w.extractLsb' 59 3, w.extractLsb' 12 36⟩

/-- BadPAddr as a word (R36). -/
def BadPAddrReg.image (r : BadPAddrReg) : Word :=
  placeField r.addr Layout.badPAddrAddr ||| placeField r.syn Layout.badPAddrSyn

/-- Status as a word (R40). -/
def StatusReg.image (r : StatusReg) : Word :=
  placeBit r.ie Layout.statusIe ||| placeBit r.exl Layout.statusExl ||| placeBit r.ku Layout.statusKu |||
    placeBit r.ux Layout.statusUx ||| placeBit r.xx Layout.statusXx ||| placeField r.im Layout.statusIm |||
    placeBit r.re Layout.statusRe ||| placeBit r.fr Layout.statusFr ||| placeBit r.cu0 Layout.statusCu0 |||
    placeBit r.cu1 Layout.statusCu1 ||| placeField r.ups Layout.statusUps ||| placeField r.kps Layout.statusKps |||
    placeBit r.dm Layout.statusDm

/-- Status from a word (R40). -/
def StatusReg.ofWord (w : Word) : StatusReg where
  ie := w.getLsbD Layout.statusIe
  exl := w.getLsbD Layout.statusExl
  ku := w.getLsbD Layout.statusKu
  ux := w.getLsbD Layout.statusUx
  xx := w.getLsbD Layout.statusXx
  im := w.extractLsb' Layout.statusIm 11
  re := w.getLsbD Layout.statusRe
  fr := w.getLsbD Layout.statusFr
  cu0 := w.getLsbD Layout.statusCu0
  cu1 := w.getLsbD Layout.statusCu1
  ups := w.extractLsb' Layout.statusUps 4
  kps := w.extractLsb' Layout.statusKps 4
  dm := w.getLsbD Layout.statusDm

/-- Whether a word sets a bit of Status that must be 0 on write (R30). -/
def StatusReg.reservedSet (w : Word) : Bool := (StatusReg.ofWord w).image != w

/-- Cause as a word, with the two bits that are not storage: FPI and IP10 (R42, R43). -/
def CauseReg.image (r : CauseReg) (fpi ip10 : Bool) : Word :=
  placeBit r.bd Layout.causeBd ||| placeField r.ce Layout.causeCe ||| placeBit r.nmi Layout.causeNmi |||
    placeBit r.be Layout.causeBe ||| placeBit r.vci Layout.causeVci ||| placeBit fpi Layout.causeFpi |||
    placeField r.ip Layout.causeIp ||| placeBit ip10 (Layout.causeIp + 10) |||
    placeField r.excCode Layout.causeExcCode

/-- Cause after a DMTC0: IP0 and IP1 take the written value, IP8, IP9 and VCI can only be cleared, NMI is stored, the
rest stays (R43, R521, D12). -/
def CauseReg.written (r : CauseReg) (w : Word) : CauseReg :=
  { r with
    nmi := w.getLsbD Layout.causeNmi
    vci := r.vci && w.getLsbD Layout.causeVci
    ip :=
      let new := w.extractLsb' Layout.causeIp 10
      (new &&& 0b0000000011#10) ||| (r.ip &&& 0b0011111100#10) ||| (r.ip &&& new &&& 0b1100000000#10) }

/-- Config as a word; DB = 1, IB = 1, DC = 2, IC = 3 are fixed by hardware (R47). -/
def ConfigReg.image (r : ConfigReg) : Word :=
  placeField 1#1 Layout.configDb ||| placeField 1#1 Layout.configIb ||| placeField 2#3 Layout.configDc |||
    placeField 3#3 Layout.configIc ||| placeBit r.be Layout.configBe ||| placeBit r.pm Layout.configPm |||
    placeBit r.ice Layout.configIce ||| placeBit r.smm Layout.configSmm

/-- The writable fields of Config from a word (R47). -/
def ConfigReg.ofWord (w : Word) : ConfigReg :=
  ⟨w.getLsbD Layout.configBe, w.getLsbD Layout.configPm, w.getLsbD Layout.configIce, w.getLsbD Layout.configSmm⟩

/-- One pair of Wired in its byte: Index in [6:0], v in [7] (R49; proposed positions). -/
def WiredPair.image (p : WiredPair) : BitVec 8 := (BitVec.ofBool p.v) ++ p.index

/-- One pair of Wired from its byte (R49). -/
def WiredPair.ofByte (b : BitVec 8) : WiredPair := ⟨b.extractLsb' 0 7, b.getLsbD 7⟩

/-- Wired as a word: pair x in byte x (R49). -/
def wiredImage (ps : Vector WiredPair 4) : Word :=
  placeField ps[0].image 0 ||| placeField ps[1].image 8 ||| placeField ps[2].image 16 ||| placeField ps[3].image 24

/-- Wired from a word (R49). -/
def wiredOfWord (w : Word) : Vector WiredPair 4 :=
  #v[WiredPair.ofByte (w.extractLsb' 0 8), WiredPair.ofByte (w.extractLsb' 8 8),
     WiredPair.ofByte (w.extractLsb' 16 8), WiredPair.ofByte (w.extractLsb' 24 8)]

/-- DCache as a word (R50). -/
def DCacheReg.image (r : DCacheReg) : Word :=
  placeBit r.h Layout.dCacheH ||| placeField r.tag Layout.dCacheTag ||| placeField r.v Layout.dCacheV |||
    placeBit r.e Layout.dCacheE

/-- DCache from a word (R50). -/
def DCacheReg.ofWord (w : Word) : DCacheReg :=
  ⟨w.getLsbD Layout.dCacheH, w.extractLsb' Layout.dCacheTag 28, w.extractLsb' Layout.dCacheV 4,
    w.getLsbD Layout.dCacheE⟩

/-- The FSR as a 32-bit word (R54). -/
def Fsr.image (f : Fsr) : BitVec 32 :=
  (placeField (f.fcc.extractLsb' 1 7) Layout.fsrFccHigh ||| placeBit f.fs Layout.fsrFs |||
    placeField (f.fcc.extractLsb' 0 1) Layout.fsrFccLow ||| placeBit f.e Layout.fsrE |||
    placeField f.cause Layout.fsrCause ||| placeField f.enable Layout.fsrEnable |||
    placeField f.flags Layout.fsrFlags ||| placeField f.rm Layout.fsrRm).setWidth 32

/-- The FSR from a 32-bit word (R54). -/
def Fsr.ofWord (w : BitVec 32) : Fsr where
  fcc := w.extractLsb' Layout.fsrFccHigh 7 ++ w.extractLsb' Layout.fsrFccLow 1
  fs := w.getLsbD Layout.fsrFs
  e := w.getLsbD Layout.fsrE
  cause := w.extractLsb' Layout.fsrCause 5
  enable := w.extractLsb' Layout.fsrEnable 5
  flags := w.extractLsb' Layout.fsrFlags 5
  rm := w.extractLsb' Layout.fsrRm 2

/-- FConfig as a 32-bit word (R53). -/
def fConfigImage (imp rev : BitVec 8) : BitVec 32 :=
  (placeField imp Layout.fConfigImp ||| placeField rev Layout.fConfigRev).setWidth 32

end Sys2Proof.Machine
end

