-- ==== Sys2Proof/Machine/Ops.lean ====
section
/-! DEFINITION. The named operations over registers and memory, the mode, taking an exception and returning from one,
and the ways an instruction ends. -/

namespace Sys2Proof.Machine

/-- The outcome of a step of this machine. -/
abbrev Outcome := Host.Outcome State Fault Refusal

/-! ## General registers (R20, R22) -/

/-- The value of a general register; r0 always holds zero (R20). -/
def State.reg (s : State) (r : Reg) : Word := if r = 0 then 0 else s.gpr[r.toNat]'r.isLt

/-- The state after a write to a general register; a write to r0 is discarded (R20). -/
def State.setReg (s : State) (r : Reg) (v : Word) : State :=
  if r = 0 then s else { s with gpr := s.gpr.set r.toNat v r.isLt }

/-! ## Memory (R100, R108) -/

/-- What a byte of memory that nothing has written reads as: 0 (DESIGN CHOICE, log 10). -/
def Memory.unlisted (_ : Nat) : Byte := 0

/-- One byte of physical memory. -/
def Memory.read (m : List Host.Cell) (a : Nat) : Byte := CMap.get Memory.unlisted m a

/-- Memory after one byte is written. -/
def Memory.write (m : List Host.Cell) (a : Nat) (b : Byte) : List Host.Cell := CMap.set Memory.unlisted m a b

/-- The canonical form of memory: addresses strictly rising, no entry equal to what an unlisted address reads as. -/
def Memory.wf (m : List Host.Cell) : Bool := CMap.wf Memory.unlisted m

/-- Memory after bytes are written at consecutive addresses, those that take them (R108). -/
def Memory.writeList (takes : Nat → Bool) (m : List Host.Cell) : Nat → List Byte → List Host.Cell
  | _, [] => m
  | a, b :: bs => Memory.writeList takes (if takes a then Memory.write m a b else m) (a + 1) bs

/-- The byte order in which each byte was last stored, none where nothing was stored (R124, log 40). -/
def ByteOrder.unlisted (_ : Nat) : Option Bool := none

/-- The byte-order record after a store of n bytes, for the addresses that take them (R124, R108, log 40). -/
def ByteOrder.mark (takes : Nat → Bool) (m : List (Nat × Option Bool)) (bigEndian : Bool) :
    Nat → Nat → List (Nat × Option Bool)
  | _, 0 => m
  | a, n + 1 =>
    ByteOrder.mark takes (if takes a then CMap.set ByteOrder.unlisted m a (some bigEndian) else m) bigEndian (a + 1) n

/-- Whether one of n bytes was last stored in the other byte order (R124, D16, log 40). -/
def ByteOrder.mixed (m : List (Nat × Option Bool)) (bigEndian : Bool) : Nat → Nat → Bool
  | _, 0 => false
  | a, n + 1 =>
    CMap.get ByteOrder.unlisted m a == some (!bigEndian) || ByteOrder.mixed m bigEndian (a + 1) n

/-! ## The physical map (R108, log 11) -/

/-- What stands at a physical address: what the first region that holds it says, else RAM. -/
def physKind : List PhysRegion → Nat → PhysKind
  | [], _ => .ram
  | r :: rs, a => if r.base ≤ a ∧ a < r.base + r.size then r.kind else physKind rs a

/-- A kind of place whose bytes are those of memory: RAM and ROM. -/
def PhysKind.backed : PhysKind → Bool
  | .ram => true
  | .rom => true
  | .device => false
  | .nothing => false

/-- RAM stands at a physical address: a store changes its byte. -/
def State.ramAt (s : State) (a : Nat) : Bool := physKind s.physMap a == .ram

/-- Memory stands at a physical address: a load gets its byte. -/
def State.backedAt (s : State) (a : Nat) : Bool := (physKind s.physMap a).backed

/-- The byte a read of a physical address gets: that of memory, or where none stands a free one (R108, R599, log 11). -/
def State.physByte (s : State) (a : Nat) : Byte :=
  if s.backedAt a then Memory.read s.mem a else (Config.freeWord (.unbacked a) s.draws).setWidth 8

/-- The bytes that reads of n consecutive physical addresses get. -/
def State.physBytes (s : State) : Nat → Nat → List Byte
  | _, 0 => []
  | a, n + 1 => s.physByte a :: s.physBytes (a + 1) n

/-! ## Registers whose last write may be late (R667, R668; log 47) -/

/-- The value in force: the new one, or while the window of a write is open a free choice of the old and the new. -/
def lateView {α : Type} (w : Option (LateReg α)) (site : FreeSite) (draws : Nat) (new : α) : α :=
  match w with
  | none => new
  | some l => if Config.freeBool site draws then l.old else new

/-- Status as it is in force; inside the window of a DMTC0 each field but UPS and KPS is the old or the new one. The page sizes
are in force after 3 SSNOPs for a memory operation and after 2 for a TLB operation, and closer ones are refused (R663, R667,
R668); an instruction fetch inside the window takes the new ones (DESIGN CHOICE, log 59). -/
def State.statusView (s : State) : StatusReg :=
  match s.late.status with
  | none => s.cp0.status
  | some l =>
    let old := l.old
    let new := s.cp0.status
    let pick := fun n => Config.freeBool (.lateStatus n) s.draws
    { ie := if pick 0 then old.ie else new.ie
      exl := if pick 1 then old.exl else new.exl
      ku := if pick 2 then old.ku else new.ku
      ux := if pick 3 then old.ux else new.ux
      xx := if pick 4 then old.xx else new.xx
      im := if pick 5 then old.im else new.im
      re := if pick 6 then old.re else new.re
      fr := if pick 7 then old.fr else new.fr
      cu0 := if pick 8 then old.cu0 else new.cu0
      cu1 := if pick 9 then old.cu1 else new.cu1
      ups := new.ups
      kps := new.kps
      dm := if pick 10 then old.dm else new.dm }

/-- TrapBase as an exception entry finds it (R668). -/
def State.trapBaseView (s : State) : TrapBaseReg :=
  lateView s.late.trapBase .lateTrapBase s.draws s.cp0.trapBase

/-- Config as it is in force (R668). -/
def State.configView (s : State) : ConfigReg := lateView s.late.config .lateConfig s.draws s.cp0.config

/-- ICache.IASID as it is in force (R668). -/
def State.iasidView (s : State) : BitVec 8 := lateView s.late.iasid .lateIasid s.draws s.cp0.iasid

/-- Wired as it is in force (R668). -/
def State.wiredView (s : State) : Vector WiredPair 4 := lateView s.late.wired .lateWired s.draws s.cp0.wired

/-- IP10, which is Counts[31] (R38, R43, R598, R668). -/
def State.ip10 (s : State) : Bool := lateView s.late.counts .lateCounts s.draws (s.cp0.counts.getLsbD 31)

/-- Cause before a write inside its window took effect: IP0 and IP1 as they were, IP8, IP9 and VCI still set if they were
set; what hardware writes is current (R43, R668). -/
def CauseReg.unwritten (now old : CauseReg) : CauseReg :=
  { now with
    nmi := old.nmi
    vci := now.vci || old.vci
    ip := (now.ip &&& 0b1111111100#10) ||| (old.ip &&& 0b1100000011#10) }

/-- Cause as it is in force (R668). -/
def State.causeView (s : State) : CauseReg :=
  match s.late.cause with
  | none => s.cp0.cause
  | some l => if Config.freeBool .lateCause s.draws then s.cp0.cause.unwritten l.old else s.cp0.cause

/-! ## Mode (R610) -/

/-- User mode: KU = 1 and EXL = 0; otherwise the processor is in kernel mode (R610). -/
def State.user (s : State) : Bool := s.statusView.ku && !s.statusView.exl

/-- Coprocessor 0 is usable: always in kernel mode, by CU0 in user mode (R529, R572). -/
def State.usable0 (s : State) : Bool := !s.user || s.statusView.cu0

/-- Coprocessor 1 is usable: by CU1, in any mode (R572). -/
def State.usable1 (s : State) : Bool := s.statusView.cu1

/-- The byte order of data accesses: Config.BE xor (user and Status.RE) (R124). -/
def State.bigEndian (s : State) : Bool := s.configView.be ^^ (s.user && s.statusView.re)

/-! ## The floating-point interrupt condition (R597) -/

/-- Cause.FPI of an FSR: an enabled flag, or E (R597, D31). -/
def Fsr.fpi (f : Fsr) : Bool := f.flags &&& f.enable != 0 || f.e

/-! ## Exceptions -/

/-- What an instruction or the machine can raise, with what its entry loads (R561). -/
inductive Exc where
  /-- An interrupt: Int (R594). -/
  | interrupt
  /-- The precise floating-point interrupt: Int (R597, D36). -/
  | floatingPoint
  /-- Address Error on a load or a fetch: AdEL (R566). -/
  | addressErrorLoad (va : Word)
  /-- Address Error on a store: AdES (R566). -/
  | addressErrorStore (va : Word)
  /-- TLB Refill: TLBL or TLBS; the address, the log2 of the page size and the set to replace (R134, R136). -/
  | tlbRefill (store : Bool) (va : Word) (pageBits : Nat) (set : BitVec 2)
  /-- TLB Invalid: TLBL or TLBS; the matching set (R134). -/
  | tlbInvalid (store : Bool) (va : Word) (pageBits : Nat) (set : BitVec 2)
  /-- TLB Modified: Mod; the matching set (R134). -/
  | tlbModified (va : Word) (pageBits : Nat) (set : BitVec 2)
  /-- Coprocessor Unusable: CpU (R572). -/
  | coprocessorUnusable (unit : BitVec 2)
  /-- Reserved Instruction: RI (R571). -/
  | reservedInstruction
  /-- Integer Overflow: Ov (R570). -/
  | overflow
  /-- Trap: Tr (R573). -/
  | trap
  /-- System Call: Sys (R573). -/
  | systemCall
  /-- Breakpoint: Bp (R573). -/
  | breakpoint
  deriving DecidableEq, Repr

/-- The exception code (R44). -/
def Exc.code : Exc → BitVec 5
  | .interrupt => 0
  | .floatingPoint => 0
  | .tlbModified _ _ _ => 1
  | .tlbRefill store _ _ _ => if store then 3 else 2
  | .tlbInvalid store _ _ _ => if store then 3 else 2
  | .addressErrorLoad _ => 4
  | .addressErrorStore _ => 5
  | .systemCall => 8
  | .breakpoint => 9
  | .reservedInstruction => 10
  | .coprocessorUnusable _ => 11
  | .overflow => 12
  | .trap => 13

/-- The vector offset when EXL = 0: by region for a TLB Refill, 0xc00 for everything else (R582). -/
def Exc.offset : Exc → BitVec 12
  | .tlbRefill _ va _ _ =>
    let r := va.extractLsb' 62 2
    if r = 0 then 0x000 else if r = 1 then 0x400 else 0x800
  | _ => 0xc00

/-- A VPN with the bits inside the page offset zeroed: none up to 64K, bit 19 of the address for 1M, [21:19] for 4M,
[23:19] for 16M (R39, R133, D11). -/
def maskVpn (vpn : BitVec 29) (pageBits : Nat) : BitVec 29 := (vpn >>> (pageBits - 19)) <<< (pageBits - 19)

/-- The VPN field of an address, VA[47:19]. -/
def vpnOf (va : Word) : BitVec 29 := va.extractLsb' 19 29

/-- The region of an address, VA[63:62] (R101). -/
def regionOf (va : Word) : BitVec 2 := va.extractLsb' 62 2

/-- An address with the filler bits of region 11 cleared: the two forms of a KV1 address name the same byte (R105). -/
def canonicalVa (va : Word) : Word := if regionOf va = 3 then 3#2 ++ 0#14 ++ va.extractLsb' 0 48 else va

/-- What a TLB exception loads besides the common registers: VAddr, EntryHi.R and VPN, TLBSet.SET, ShiftAmt (R134, D7, D9). -/
def Cop0.loadTlbFailure (c : Cop0) (va : Word) (pageBits : Nat) (set : BitVec 2) : Cop0 :=
  { c with
    vAddr := va
    entryHi := { c.entryHi with r := regionOf va, vpn := maskVpn (vpnOf va) pageBits }
    tlbSet := { c.tlbSet with set := set }
    shiftAmt := BitVec.ofNat 5 pageBits }

/-- The event-specific registers of an exception entry (R580 step 1). After a refill "The contents of EntryLo is
undefined": a free value (U14). -/
def Exc.load (e : Exc) (draws : Nat) (c : Cop0) : Cop0 :=
  match e with
  | .addressErrorLoad va => { c with vAddr := va }
  | .addressErrorStore va => { c with vAddr := va }
  | .tlbRefill _ va k set =>
    { c.loadTlbFailure va k set with entryLo := TlbLo.ofWord (Config.freeWord .refillEntryLo draws) }
  | .tlbInvalid _ va k set => c.loadTlbFailure va k set
  | .tlbModified va k set => c.loadTlbFailure va k set
  | _ => c

/-- Cause.CE after an entry: the unit of a Coprocessor Unusable exception, else unspecified (R580, D33, U40). -/
def Exc.ce (e : Exc) (draws : Nat) : BitVec 2 :=
  match e with
  | .coprocessorUnusable unit => unit
  | _ => (Config.freeWord .causeCe draws).setWidth 2

/-- The exception vector: TrapBase.R, TrapBase.C, eleven zeros, TrapBase.Base, the offset (R581). -/
def TrapBaseReg.vector (t : TrapBaseReg) (off : BitVec 12) : Word := t.r ++ t.c ++ 0#11 ++ t.base ++ off

/-- The state with the program at an address and no delay slot pending. -/
def State.goTo (s : State) (target : Word) : State := { s with pc := target, npc := target + 4, inSlot := false }

/-- The address that an event saves: the instruction, or the branch before it when it is in a delay slot (R45, R580). That this
holds of a fetch Address Error in a delay slot too, for which R566 says EPC = PC and BD = 0, is the model's (DESIGN CHOICE,
log 32). -/
def State.resumeAddress (s : State) : Word := if s.inSlot then s.pc - 4 else s.pc

/-- The EPC and BD that an entry leaves: written when EXL was 0, kept when EXL was 1 (R580, D33). -/
def Cop0.saveResume (c : Cop0) (exl : Bool) (resume : Word) (bd : Bool) : Cop0 :=
  if exl then c else { c with epc := resume, cause := { c.cause with bd := bd } }

/-- Taking a general exception (R580): the event's registers, EPC and BD when EXL = 0, ExcCode, EXL, and the vector. It
separates the instructions before it from those after it for every row of the hazard table (R660). -/
def takeException (e : Exc) (s : State) : State :=
  let exl := s.statusView.exl
  let c := ((e.load s.draws s.cp0).saveResume exl s.resumeAddress s.inSlot)
  let target := s.trapBaseView.vector (if exl then 0xc00 else e.offset)
  { s.goTo target with
    cp0 :=
      { c with
        cause := { c.cause with excCode := e.code, ce := e.ce s.draws }
        status := { c.status with exl := true } }
    fpiSeen := if e = .floatingPoint then true else s.fpiSeen
    fccBusy := 0
    hazards := []
    late := Late.closed }

/-- Taking a non-maskable interrupt (R642): EPC and BD always written, Cause.NMI and EXL set, the program at the reset
vector. -/
def takeNmi (s : State) : State :=
  { s.goTo resetVector with
    cp0 :=
      { s.cp0 with
        epc := s.resumeAddress
        cause := { s.cp0.cause with bd := s.inSlot, nmi := true }
        status := { s.cp0.status with exl := true } }
    nmiPending := false
    fccBusy := 0
    hazards := []
    late := Late.closed }

/-- Returning from an exception (R522): EXL and LLbit cleared, the program at EPC, no delay slot. It separates the
instructions before it from those after it for every row of the hazard table (R660). -/
def returnFromException (s : State) : State :=
  { s.goTo s.cp0.epc with
    cp0 := { s.cp0 with status := { s.cp0.status with exl := false } }
    llbit := false
    fccBusy := 0
    hazards := []
    late := Late.closed }

/-! ## Partial results -/

/-- A part of an instruction: a value, an exception of the machine, or a stop of the model. -/
inductive Access (α : Type) where
  | ok (a : α)
  | raise (e : Exc)
  | fault (f : Fault)
  | refuse (r : Refusal)
  deriving DecidableEq, Repr

/-- One part after another; the first that does not give a value decides. -/
def Access.bind {α β : Type} (x : Access α) (f : α → Access β) : Access β :=
  match x with
  | .ok a => f a
  | .raise e => .raise e
  | .fault e => .fault e
  | .refuse r => .refuse r

/-- The outcome of an instruction that started in a state: an exception is taken from that state, in which the
instruction has written nothing (R580). -/
def Access.finish (s : State) (x : Access State) : Outcome :=
  match x with
  | .ok t => .next t
  | .raise e => .next (takeException e s)
  | .fault f => .fault f
  | .refuse r => .refused r

/-! ## Guards, in the order of R590 -/

/-- Coprocessor 0 must be usable (R529). -/
def needCop0 (s : State) : Access Unit := if s.usable0 then .ok () else .raise (.coprocessorUnusable 0)

/-- Coprocessor 1 must be usable (R572). -/
def needCop1 (s : State) : Access Unit := if s.usable1 then .ok () else .raise (.coprocessorUnusable 1)

/-- A MIPS III instruction in user mode needs Status.UX (R611). -/
def needUx (s : State) : Access Unit := if s.user && !s.statusView.ux then .raise .reservedInstruction else .ok ()

/-- An SGI-extended instruction in user mode needs Status.XX (R612). -/
def needXx (s : State) : Access Unit := if s.user && !s.statusView.xx then .raise .reservedInstruction else .ok ()

/-- A control transfer must not be in a delay slot (R340, U23, log 49). -/
def needNotInSlot (s : State) : Access Unit := if s.inSlot then .refuse .transferInDelaySlot else .ok ()

/-! ## The ways an instruction ends (R341) -/

/-- Sequential completion: the next instruction is the one NPC names (R341). -/
def State.advance (s : State) : State :=
  { s with pc := s.npc, npc := s.npc + 4, inSlot := false, fccBusy := 0 }

/-- A branch or jump that is taken: its delay slot next, then the target (R341). -/
def State.branchTo (s : State) (target : Word) : State :=
  { s with pc := s.npc, npc := target, inSlot := true, fccBusy := 0 }

/-- A branch that is not taken: its delay slot next, then the instruction after it (R341). -/
def State.branchNot (s : State) : State :=
  { s with pc := s.npc, npc := s.npc + 4, inSlot := true, fccBusy := 0 }

/-- A branch-likely that is not taken: its delay slot is nullified (R341). -/
def State.skipSlot (s : State) : State :=
  { s with pc := s.npc + 4, npc := s.npc + 8, inSlot := false, fccBusy := 0 }

end Sys2Proof.Machine
end

