-- ==== Sys2Proof/Machine/Flags.lean ====
section
/-! DEFINITION. Flags: the floating-point condition codes, the exception groups of the FSR and the signed overflow of the
integer unit (R27, R54, R222, R670). -/

namespace Sys2Proof.Machine

/-! ## Integer overflow -/

/-- The sum of two words in 33 bits (R200). -/
def addWide32 (a b : BitVec 32) : BitVec 33 := a.signExtend 33 + b.signExtend 33

/-- The difference of two words in 33 bits (R207). -/
def subWide32 (a b : BitVec 32) : BitVec 33 := a.signExtend 33 - b.signExtend 33

/-- The sum of two doublewords in 65 bits (R204). -/
def addWide64 (a b : Word) : BitVec 65 := a.signExtend 65 + b.signExtend 65

/-- The difference of two doublewords in 65 bits (R210). -/
def subWide64 (a b : Word) : BitVec 65 := a.signExtend 65 - b.signExtend 65

/-- Two's complement overflow of a word operation: the two top bits differ (R200). -/
def overflow32 (t : BitVec 33) : Bool := t.getLsbD 32 != t.getLsbD 31

/-- Two's complement overflow of a doubleword operation (R204). -/
def overflow64 (t : BitVec 65) : Bool := t.getLsbD 64 != t.getLsbD 63

/-! ## Condition codes (R27) -/

/-- A condition code as the FPU sees it. -/
def Fsr.cc (f : Fsr) (n : CC) : Bool := f.fcc.getLsbD n.toNat

/-- The FSR with one condition code written. -/
def Fsr.setCc (f : Fsr) (n : CC) (b : Bool) : Fsr :=
  { f with fcc := (f.fcc &&& ~~~(1#8 <<< n.toNat)) ||| ((BitVec.ofBool b).setWidth 8 <<< n.toNat) }

/-- A condition code as the CPU tests it: a free bit in the instruction right after the one that wrote it (R670, log 28). -/
def State.testCc (s : State) (n : CC) : Bool :=
  if s.fccBusy.getLsbD n.toNat then Config.freeBool .fccHazard s.draws else s.fsr.cc n

/-! ## Exception groups of the FSR (R54): V Z O U I are bits 4 to 0 -/

/-- Invalid operation. -/
def flagV : BitVec 5 := 0b10000#5
/-- Division by zero. -/
def flagZ : BitVec 5 := 0b01000#5
/-- Overflow. -/
def flagO : BitVec 5 := 0b00100#5
/-- Underflow. -/
def flagU : BitVec 5 := 0b00010#5
/-- Inexact. -/
def flagI : BitVec 5 := 0b00001#5

/-- The FSR after an operation that raised exceptions: the flags are cumulative, E is cumulative, Cause describes the
operation in performance mode and is unspecified in precise mode (R54, R417, D30, log 26). -/
def Fsr.afterOperation (f : Fsr) (precise : Bool) (raised : BitVec 5) (e : Bool) (draws : Nat) : Fsr :=
  { f with
    flags := f.flags ||| raised
    e := f.e || e
    cause := if precise then (Config.freeWord .fsrCause draws).setWidth 5 else raised }

/-- Whether an operation's exceptions trap in precise mode: an enabled one, or E, which is always enabled (R417, R418, D31). -/
def Fsr.traps (f : Fsr) (raised : BitVec 5) (e : Bool) : Bool := raised &&& f.enable != 0 || e

end Sys2Proof.Machine
end

