-- ==== Sys2Proof/Machine/Translate.lean ====
section
/-! DEFINITION. Virtual addresses: which are legal, how the TLB translates them, and what a failed translation raises
(20_memory.md sections 1 and 4). -/

namespace Sys2Proof.Machine

/-- What an access is for (R130). -/
inductive AccessKind where
  | fetch
  | load
  | store
  deriving DecidableEq, Repr

/-- The Address Error of an access (R103, R566). -/
def AccessKind.addressError (k : AccessKind) (va : Word) : Exc :=
  match k with
  | .store => .addressErrorStore va
  | _ => .addressErrorLoad va

/-- Whether the access is a store. -/
def AccessKind.isStore (k : AccessKind) : Bool := k == .store

/-- What a TLB exception of an access loads into VAddr: for a fetch the start of the I-cache line (R37, D10, log 55). -/
def AccessKind.faultAddress (k : AccessKind) (va : Word) : Word :=
  match k with
  | .fetch => va &&& ~~~31#64
  | _ => va

/-- A kernel-physical address is legal when VA[61:59] names an attribute and VA[58:40] = 0 (R106). -/
def legalPhysical (va : Word) : Bool :=
  let c := va.extractLsb' 59 3
  (c == 0 || c == 2 || c == 3 || c == 4 || c == 5) && va.extractLsb' 40 19 == 0

/-- LegalAddress (R103). -/
def legalAddress (va : Word) (user : Bool) : Bool :=
  let r := regionOf va
  let filler := va.extractLsb' 48 14
  if user && r != 0 then false
  else if r == 0 || r == 1 then filler == 0
  else if r == 3 then filler == 0 || filler == 0x3fff
  else legalPhysical va

/-- The log2 of a page size by its encoding in UPS or KPS; the other encodings are reserved (R41). -/
def pageBitsOf (size : BitVec 4) : Option Nat :=
  match size.toNat with
  | 0 => some 12
  | 1 => some 13
  | 2 => some 14
  | 3 => some 16
  | 4 => some 20
  | 5 => some 22
  | 6 => some 24
  | _ => none

/-- The page size field in force for a region (R132). -/
def pageSizeField (st : StatusReg) (region : BitVec 2) (r0neg : Bool) : BitVec 4 :=
  if region == 0 && !r0neg then st.ups else st.kps

/-- TLBIndex (R131). -/
def tlbIndex (asid : BitVec 8) (va : Word) (pageBits : Nat) : BitVec 7 :=
  let v := va.extractLsb' pageBits 7
  if regionOf va = 3 then v else v ^^^ asid.setWidth 7

/-- Match (R133). -/
def tlbMatch (e : TlbHi) (asid : BitVec 8) (va : Word) (pageBits : Nat) : Bool :=
  e.r == regionOf va && maskVpn e.vpn pageBits == maskVpn (vpnOf va) pageBits && (regionOf va == 3 || e.asid == asid)

/-- The key of a set of a class in the TLB table. -/
def tlbKey (index : BitVec 7) (set : BitVec 2) : Nat := 4 * index.toNat + set.toNat

/-- A TLB entry that nothing has written since reset: VPN is the set's number, everything else 0 (log 8). -/
def tlbUnwritten (key : Nat) : TlbEntry := ⟨⟨0, BitVec.ofNat 29 (key % 4), 0⟩, ⟨0, 0, false, false⟩⟩

/-- One TLB entry (R55). -/
def State.tlbEntry (s : State) (index : BitVec 7) (set : BitVec 2) : TlbEntry :=
  CMap.get tlbUnwritten s.tlb (tlbKey index set)

/-- The state with one TLB entry replaced (R55). -/
def State.setTlbEntry (s : State) (index : BitVec 7) (set : BitVec 2) (e : TlbEntry) : State :=
  { s with tlb := CMap.set tlbUnwritten s.tlb (tlbKey index set) e }

/-- The sets of a class that match an address (R130, R133). -/
def State.tlbMatches (s : State) (index : BitVec 7) (va : Word) (pageBits : Nat) : List (BitVec 2) :=
  [0, 1, 2].filter fun set => tlbMatch (s.tlbEntry index set).hi s.cp0.entryHi.asid va pageBits

/-- Whether a class is wired (R136). -/
def State.wiredClass (s : State) (index : BitVec 7) : Bool :=
  s.wiredView.toList.any fun p => p.v && p.index == index

/-- The set a refill is to replace: a free choice of 0 to 2, or of 1 and 2 when the class is wired (R136, log 39). -/
def State.refillSet (s : State) (index : BitVec 7) : BitVec 2 :=
  let n := Config.freeNat .refillSet s.draws
  if s.wiredClass index then BitVec.ofNat 2 (1 + n % 2) else BitVec.ofNat 2 (n % 3)

/-- The result of a translation: the physical address and the coherence attribute (R130). -/
structure Translation where
  pa : PAddr
  c : BitVec 3
  deriving DecidableEq, Repr

/-- Whether a coherence attribute is cachable (R150). -/
def Translation.cachable (t : Translation) : Bool := t.c == 3 || t.c == 4 || t.c == 5

/-- Whether a C value of a TLB entry is reserved (R32, R150). -/
def reservedCoherence (c : BitVec 3) : Bool := c == 1 || c == 6 || c == 7

/-- The physical address of a page: the frame above the page offset, the address below it (R130). Where the PFN has
non-zero bits inside the page offset, the address bits from 12 up to the page size are free (U15, log 35). -/
def physicalAddress (pfn : BitVec 28) (va : Word) (pageBits : Nat) (draws : Nat) : PAddr :=
  let frame : PAddr := pfn ++ 0#12
  let inPage : PAddr := ~~~(BitVec.allOnes 40 <<< pageBits)
  let offset : PAddr := va.setWidth 40 &&& inPage
  let offset :=
    if frame &&& inPage = 0 then offset
    else (offset &&& 0xfff) ||| ((Config.freeWord .pfnLow draws).setWidth 40 &&& inPage &&& ~~~0xfff)
  (frame &&& ~~~inPage) ||| offset

/-- What a matched entry gives an access (R130, R134, R150). -/
def useEntry (kind : AccessKind) (va : Word) (pageBits : Nat) (set : BitVec 2) (e : TlbLo) (draws : Nat) :
    Access Translation :=
  if !e.v then .raise (.tlbInvalid kind.isStore (kind.faultAddress va) pageBits set)
  else if kind.isStore && !e.d then .raise (.tlbModified va pageBits set)
  else if reservedCoherence e.c then .refuse .reservedCoherence
  else .ok ⟨physicalAddress e.pfn va pageBits draws, e.c⟩

/-- The translation of a mapped address (R130, R134, R135). A fetch that misses the I-cache within three cycles of a DMTC0 to
EntryHi or Status, or of a TLBW, uses the new ASID, page size and entry at once: the spec gives the latency for memory operations
and no row for fetches (R167, R667; DESIGN CHOICE, log 59). -/
def State.translateMapped (s : State) (kind : AccessKind) (va : Word) (pageBits : Nat) : Access Translation :=
  let index := tlbIndex s.cp0.entryHi.asid va pageBits
  match s.tlbMatches index va pageBits with
  | [] => .raise (.tlbRefill kind.isStore (kind.faultAddress va) pageBits (s.refillSet index))
  | [set] => useEntry kind va pageBits set (s.tlbEntry index set).lo s.draws
  | _ => .fault .tlbMultipleMatch

/-- Translate (R130, R107). -/
def State.translate (s : State) (kind : AccessKind) (va : Word) (r0neg : Bool) : Access Translation :=
  if !legalAddress va s.user then .raise (kind.addressError va)
  else if regionOf va = 2 then .ok ⟨va.setWidth 40, va.extractLsb' 59 3⟩
  else
    match pageBitsOf (pageSizeField s.statusView (regionOf va) r0neg) with
    | none => .refuse .reservedPageSize
    | some k => s.translateMapped kind va k

/-- AddrCalc: the effective address and whether it was formed from r0 with a negative offset (R112, R113). -/
def State.addrCalc (s : State) (kind : AccessKind) (base : Reg) (off : Word) : Access (Word × Bool) :=
  let va := s.reg base + off
  if base = 0 ∧ off.msb then
    if s.user then .raise (kind.addressError va) else .ok (3#2 ++ va.extractLsb' 0 62, true)
  else if regionOf va ≠ regionOf (s.reg base) then .raise (kind.addressError va)
  else .ok (va, false)

/-- The address of a data access: AddrCalc, the alignment check, Translate, in this order (R140, R141). -/
def State.dataAddress (s : State) (kind : AccessKind) (align : Nat) (base : Reg) (off : Word) :
    Access (Word × Translation) :=
  (s.addrCalc kind base off).bind fun a =>
    if a.1.toNat % align ≠ 0 then .raise (kind.addressError a.1)
    else (s.translate kind a.1 a.2).bind fun t => .ok (a.1, t)

/-- The index and page size that TLBP, TLBR and TLBW take from VAddr (R530). A kernel-physical VAddr selects no entry: the
rule says to refuse it (U32, log 37). -/
def State.vAddrEntry (s : State) : Access (BitVec 7 × Nat) :=
  let va := s.cp0.vAddr
  if regionOf va = 2 then .refuse .physicalTlbIndex
  else
    match pageBitsOf (pageSizeField s.statusView (regionOf va) false) with
    | none => .refuse .reservedPageSize
    | some k => .ok (tlbIndex s.cp0.entryHi.asid va k, k)

end Sys2Proof.Machine
end

