-- ==== Sys2Proof/Machine/Caches.lean ====
section
/-! DEFINITION. The data cache and the streaming cache as far as a program can see them (R56, R58, R151, R153, R154,
R596; logs 42, 43). -/

namespace Sys2Proof.Machine

/-- A D-cache line that holds nothing. What reset leaves of TAG, E and the data is not stated; that the 32 bytes of data are 0,
which a load reads where a DCTW sets V before a reference has filled the line, is the model's (DESIGN CHOICE, log 9). -/
def dcacheEmpty (_ : Nat) : DCacheLine := ⟨0, false, 0, Vector.replicate 32 0⟩

/-- The D-cache line an address selects, VA[13:5] (R56). -/
def dcacheIndex (va : Word) : Nat := (va.extractLsb' 5 9).toNat

/-- One D-cache line. -/
def State.dline (s : State) (index : Nat) : DCacheLine := CMap.get dcacheEmpty s.dcache index

/-- The state with one D-cache line replaced. -/
def State.setDline (s : State) (index : Nat) (l : DCacheLine) : State :=
  { s with dcache := CMap.set dcacheEmpty s.dcache index l }

/-- The tag of a physical address: PA[39:12] (R56). -/
def dcacheTag (pa : PAddr) : BitVec 28 := pa.extractLsb' 12 28

/-- The valid bits of the words that n bytes from a line offset touch. -/
def wordMask (off n : Nat) : BitVec 8 :=
  ((1#8 <<< ((off + n - 1) / 4 + 1)) - 1) &&& ~~~((1#8 <<< (off / 4)) - 1)

/-- Whether n bytes at an offset of a line are held for a physical address. -/
def DCacheLine.hit (l : DCacheLine) (pa : PAddr) (n : Nat) : Bool :=
  let mask := wordMask (pa.toNat % 32) n
  l.tag == dcacheTag pa && l.valid &&& mask == mask

/-- n bytes of a line from an offset. -/
def DCacheLine.bytes (l : DCacheLine) : Nat → Nat → List Byte
  | _, 0 => []
  | off, n + 1 => l.data.toList.getD off 0 :: l.bytes (off + 1) n

/-- A line's data after bytes are put at an offset. -/
def putBytes (data : Vector Byte 32) : Nat → List Byte → Vector Byte 32
  | _, [] => data
  | off, b :: bs => putBytes (data.setIfInBounds off b) (off + 1) bs

/-- The 32 bytes that a line filled for a physical address gets. -/
def State.memoryLine (s : State) (pa : PAddr) : Vector Byte 32 :=
  Vector.ofFn fun i => s.physByte (pa.toNat / 32 * 32 + i.val)

/-- The half line an address selects, the unit that DCTW writes: VA[13:4] (R528, R644). -/
def halfIndex (va : Word) : Nat := (va.extractLsb' 4 10).toNat

/-- Reset leaves every half line of the D-cache unwritten (R644). -/
def dcacheUnwritten (_ : Nat) : Bool := false

/-- A DCTW has written the half line of an address since reset (R153, R644). -/
def State.dcacheReady (s : State) (va : Word) : Bool := CMap.get dcacheUnwritten s.dcacheWritten (halfIndex va)

/-- A DCTW has written either half line of the line of an address since reset, and with it the line's TAG and E (R527, R528). -/
def State.dcacheTagReady (s : State) (va : Word) : Bool :=
  let k := dcacheIndex va
  CMap.get dcacheUnwritten s.dcacheWritten (2 * k) || CMap.get dcacheUnwritten s.dcacheWritten (2 * k + 1)

/-- The record of the half lines that DCTW has written, with one more. -/
def State.dcacheMark (s : State) (va : Word) : List (Nat × Bool) :=
  CMap.set dcacheUnwritten s.dcacheWritten (halfIndex va) true

/-- A data access hits in the D-cache; before the half line is first written by DCTW that is a free choice (R153, U4, log 9). -/
def State.dcacheHit (s : State) (va : Word) (pa : PAddr) (n : Nat) : Bool :=
  if s.dcacheReady va then (s.dline (dcacheIndex va)).hit pa n else Config.freeBool .dcacheUnwritten s.draws

/-- What a load gives before the D-cache's half line is first written by DCTW: a value the spec calls unspecified, and the model
leaves free (R153, R644, U4, log 9). -/
def State.dcacheUnready (s : State) (n : Nat) : List Byte :=
  bytesOf n (Config.freeWord .dcacheUnwritten s.draws)

/-- What the streaming cache holds of a sector that it does not hold. -/
def scacheEmpty (_ : Nat) : Option (BitVec 4) := none

/-- The sector of a physical address: 128 bytes (R58). -/
def sectorOf (pa : PAddr) : Nat := pa.toNat / 128

/-- The virtual synonym of an address: VA[15:12] (R154). -/
def synonymOf (va : Word) : BitVec 4 := va.extractLsb' 12 4

/-- The virtual synonym the streaming cache holds for a sector, none when it does not hold it (R58). -/
def State.synonym (s : State) (pa : PAddr) : Option (BitVec 4) := CMap.get scacheEmpty s.scache (sectorOf pa)

/-- The state with the virtual synonym of a sector set (R154). -/
def State.setSynonym (s : State) (pa : PAddr) (vs : BitVec 4) : State :=
  { s with scache := CMap.set scacheEmpty s.scache (sectorOf pa) (some vs) }

/-- The D-cache index of a sector's i-th line under a virtual synonym: VS[1:0], PA[11:7], i. -/
def synonymLine (vs : BitVec 4) (pa : PAddr) (i : Nat) : Nat := vs.toNat % 4 * 128 + pa.toNat / 128 % 32 * 4 + i

/-- The state without the D-cache copy of a sector's i-th line under a virtual synonym. -/
def State.dropLine (s : State) (vs : BitVec 4) (pa : PAddr) (i : Nat) : State :=
  let k := synonymLine vs pa i
  let l := s.dline k
  if l.tag = dcacheTag pa then s.setDline k { l with valid := 0 } else s

/-- The state without the D-cache copies of a sector under a virtual synonym, which the CC invalidates; LLbit is cleared, as by
every such invalidation (R154, R156, D20). -/
def State.dropSector (s : State) (vs : BitVec 4) (pa : PAddr) : State :=
  { (((s.dropLine vs pa 0).dropLine vs pa 1).dropLine vs pa 2).dropLine vs pa 3 with llbit := false }

/-- An integer reference that reaches the streaming cache: a sector it does not hold gets this synonym; another synonym is
repaired, the D-cache copies under the old one invalidated and VS rewritten (R154). An instruction fetch that misses does the
same, but may leave another synonym as it is (`State.fetchSynonym`). -/
def State.repairSynonym (s : State) (va : Word) (pa : PAddr) : State :=
  match s.synonym pa with
  | none => s.setSynonym pa (synonymOf va)
  | some vs => if vs = synonymOf va then s else (s.dropSector vs pa).setSynonym pa (synonymOf va)

/-- A D-cache miss on a cachable reference fills the line from memory; which words become valid, and the exclusive bit, are
free (R56, R151, log 42). -/
def State.fillLine (s : State) (va : Word) (pa : PAddr) : State :=
  s.setDline (dcacheIndex va)
    { tag := dcacheTag pa
      exclusive := Config.freeBool .fillExclusive s.draws
      valid := (Config.freeWord .fillValid s.draws).setWidth 8
      data := s.memoryLine pa }

/-- An uncached reference uses the D-cache as a buffer: its bytes are placed in the line and marked invalid (R153). That a line
with this tag keeps the valid bits of its other words, that another line loses all of its valid bits, and that E is kept, is
the model's (DESIGN CHOICE, log 42). -/
def State.bufferLine (s : State) (va : Word) (pa : PAddr) (bs : List Byte) : State :=
  let k := dcacheIndex va
  let l := s.dline k
  let kept := if l.tag = dcacheTag pa then l.valid &&& ~~~(wordMask (pa.toNat % 32) bs.length) else 0
  s.setDline k
    { tag := dcacheTag pa
      exclusive := l.exclusive
      valid := kept
      data := putBytes l.data (pa.toNat % 32) bs }

/-- The bytes an integer load finds in the D-cache or in memory (R140, R151, R153): a hit is answered by the D-cache whatever the
attribute; a miss reads memory. -/
def State.dataBytes (s : State) (va : Word) (pa : PAddr) (n : Nat) : List Byte :=
  if s.dcacheHit va pa n then (s.dline (dcacheIndex va)).bytes (pa.toNat % 32) n else s.physBytes pa.toNat n

/-- The state after an integer load: a hit changes nothing, a miss fills the line or uses it as a buffer (R151, R153, R154). -/
def State.afterLoad (s : State) (va : Word) (t : Translation) (n : Nat) : State :=
  if s.dcacheHit va t.pa n then s
  else if t.cachable then (s.repairSynonym va t.pa).fillLine va t.pa
  else s.bufferLine va t.pa (s.physBytes t.pa.toNat n)

/-- The bytes an integer load gets, and the state after it (R140, R151, R153). -/
def State.loadBytes (s : State) (va : Word) (t : Translation) (n : Nat) : List Byte × State :=
  (if s.dcacheReady va then s.dataBytes va t.pa n else s.dcacheUnready n, s.afterLoad va t n)

/-- Memory and the byte-order record after a store: only RAM takes it (R141, R124, R108). -/
def State.writeMemory (s : State) (pa : PAddr) (bs : List Byte) : State :=
  { s with
    mem := Memory.writeList s.ramAt s.mem pa.toNat bs
    byteOrder := ByteOrder.mark s.ramAt s.byteOrder s.bigEndian pa.toNat bs.length }

/-- The state after an integer store: memory, and the D-cache, which is write-through with allocate (R141, R151). That a store which
hits leaves the line's E as it was, its sector shared or not (R163), is the model's (DESIGN CHOICE, log 42). -/
def State.storeBytes (s : State) (va : Word) (t : Translation) (bs : List Byte) : State :=
  let s := s.writeMemory t.pa bs
  let s := if t.cachable then s.repairSynonym va t.pa else s
  let k := dcacheIndex va
  let l := s.dline k
  if s.dcacheHit va t.pa bs.length then s.setDline k { l with data := putBytes l.data (t.pa.toNat % 32) bs }
  else if t.cachable then s.fillLine va t.pa
  else s.bufferLine va t.pa bs

/-- The state after the valid bits of a word that the D-cache holds at a line are cleared (R56, R151). -/
def State.clearWords (s : State) (index : Nat) (pa : PAddr) (n : Nat) : State :=
  let l := s.dline index
  if l.tag = dcacheTag pa then s.setDline index { l with valid := l.valid &&& ~~~(wordMask (pa.toNat % 32) n) } else s

/-- A virtual coherence violation is detected: its address is captured unless VCI waits to be serviced or an address captured
earlier waits to be posted (R36, R596, log 43). -/
def State.noteViolation (s : State) (va : Word) (pa : PAddr) : State :=
  let captured := if s.causeView.vci || s.vciPending.any Option.isSome then none else some ⟨pa, synonymOf va⟩
  { s with vciPending := s.vciPending ++ [captured] }

/-- A floating-point reference and the streaming cache (R154, R596). A sector it does not hold, or has lost since (a free
choice), gets this synonym; another synonym is a violation when Config.SMM = 0. -/
def State.floatSynonym (s : State) (va : Word) (t : Translation) : State :=
  if t.cachable then
    match s.synonym t.pa with
    | none => s.setSynonym t.pa (synonymOf va)
    | some vs =>
      if vs = synonymOf va then s
      else if Config.freeBool .sectorReplaced s.draws then (s.dropSector vs t.pa).setSynonym t.pa (synonymOf va)
      else if s.configView.smm then s
      else s.noteViolation va t.pa
  else s

/-- The D-cache copy that a floating-point store must also reach when its sector is held under another synonym: with SMM = 1
hardware interlocks, with SMM = 0 the copy may stay stale (R154, R160). -/
def State.clearSynonymCopy (s : State) (va : Word) (t : Translation) (n : Nat) : State :=
  if t.cachable then
    match s.synonym t.pa with
    | none => s
    | some vs =>
      if vs = synonymOf va then s
      else if s.configView.smm || Config.freeBool .synonymCleared s.draws then
        s.clearWords (synonymLine vs t.pa (t.pa.toNat / 32 % 4)) t.pa n
      else s
  else s

/-- The bytes a floating-point load gets: memory, which the streaming cache always agrees with (R151); no data load is reliable
before the D-cache's half line is first written by DCTW (R644). -/
def State.floatLoadBytes (s : State) (va : Word) (t : Translation) (n : Nat) : List Byte × State :=
  (if s.dcacheReady va then s.physBytes t.pa.toNat n else s.dcacheUnready n, s.floatSynonym va t)

/-- The state after a floating-point store: memory, and the D-cache word's valid bit cleared (R56, R151). That it leaves E as it was
(R163) is the model's (DESIGN CHOICE, log 42). -/
def State.floatStoreBytes (s : State) (va : Word) (t : Translation) (bs : List Byte) : State :=
  let s := s.writeMemory t.pa bs
  let s := s.clearWords (dcacheIndex va) t.pa bs.length
  (s.clearSynonymCopy va t bs.length).floatSynonym va t

/-- An instruction fetch that misses and the streaming cache: a sector it does not hold gets this synonym (R152, R154); whether
another synonym is repaired, as for an integer reference, is free (log 43). -/
def State.fetchSynonym (s : State) (va : Word) (t : Translation) : State :=
  if t.cachable && ((s.synonym t.pa).isNone || Config.freeBool .fetchSynonym s.draws) then s.repairSynonym va t.pa
  else s

/-- Invalidate Data Cache from the bus: the line's valid bits and LLbit are cleared (R156, D20). That TAG and E stay is the
model's (DESIGN CHOICE, log 42). -/
def State.invalidateLine (s : State) (line : BitVec 9) : State :=
  { s.setDline line.toNat { s.dline line.toNat with valid := 0 } with llbit := false }

end Sys2Proof.Machine
end

