-- ==== Sys2Proof/Machine/Operands.lean ====
section
/-! DEFINITION. The operand forms: word operands of the integer unit, branch and jump targets, the values that loads get
and stores put, whole and partial (R110, R173, R220, R305, R339). -/

namespace Sys2Proof.Machine

/-! ## Integer operands -/

/-- NotWordValue: the register does not hold a sign-extended word (R220). -/
def notWordValue (v : Word) : Bool := highWord v != (lowWord v).sshiftRight 31

/-- The 64-bit result of a word operation on two operands: its 32-bit result sign extended, or a free value when an operand
is not a sign-extended word (R220, U19, log 16). -/
def State.wordResult (s : State) (a b : Word) (v : BitVec 32) : Word :=
  if notWordValue a || notWordValue b then Config.freeWord .wordOperand s.draws else sext32 v

/-- The result of a comparison as a register value. -/
def boolWord (b : Bool) : Word := if b then 1 else 0

/-- Completion of an instruction whose only effect is a general register (R221). -/
def State.writeReg (s : State) (rd : Reg) (v : Word) : Access State := .ok ((s.setReg rd v).advance)

/-! ## Targets -/

/-- A branch target: the address of the delay slot plus the offset times four (R339). -/
def branchTarget (pc : Word) (offset : BitVec 16) : Word := pc + 4 + (offset ++ 0#2).signExtend 64

/-- A jump target: the upper 36 bits of the address of the delay slot, and the target field times four (R339). -/
def jumpTarget (pc : Word) (target : BitVec 26) : Word := (pc + 4).extractLsb' 28 36 ++ target ++ 0#2

/-! ## Loads -/

/-- The value of loaded bytes; as many free bytes where one of them was last stored in the other byte order (R124, log 40). -/
def State.valueOf (s : State) (pa : PAddr) (bs : List Byte) : Word :=
  if ByteOrder.mixed s.byteOrder s.bigEndian pa.toNat bs.length then
    ofBytes (bytesOf bs.length (Config.freeWord .mixedOrder s.draws))
  else loadedValue s.bigEndian bs

/-- MemRead of the integer stream: the value and the state after the access (R140). -/
def State.loadInt (s : State) (va : Word) (t : Translation) (n : Nat) : Word × State :=
  let r := s.loadBytes va t n
  (s.valueOf t.pa r.1, r.2)

/-- MemRead of the floating-point stream (R140, R151). -/
def State.loadFloat (s : State) (va : Word) (t : Translation) (n : Nat) : Word × State :=
  let r := s.floatLoadBytes va t n
  (s.valueOf t.pa r.1, r.2)

/-! ## Stores -/

/-- MemWrite of the integer stream: the n low bytes of a value (R141). -/
def State.storeInt (s : State) (va : Word) (t : Translation) (n : Nat) (v : Word) : State :=
  s.storeBytes va t (storedBytes s.bigEndian n v)

/-- MemWrite of the floating-point stream (R141, R151). -/
def State.storeFloat (s : State) (va : Word) (t : Translation) (n : Nat) (v : Word) : State :=
  s.floatStoreBytes va t (storedBytes s.bigEndian n v)

/-! ## Partial accesses (R305) -/

/-- The bytes a left or right access touches: the distance of the first one from the effective address, back to it, and
their number, for a datum of the given size (R305 to R313). -/
structure Span where
  /-- How far before the effective address the first byte lies. -/
  back : Nat
  count : Nat
  deriving DecidableEq, Repr

/-- The bytes a left access touches: up to the end of the datum in big endian, from its start in little endian. -/
def leftSpan (bigEndian : Bool) (size : Nat) (va : Word) : Span :=
  let k := va.toNat % size
  if bigEndian then ⟨0, size - k⟩ else ⟨k, k + 1⟩

/-- The bytes a right access touches: from the start of the datum in big endian, up to its end in little endian. -/
def rightSpan (bigEndian : Bool) (size : Nat) (va : Word) : Span :=
  let k := va.toNat % size
  if bigEndian then ⟨k, k + 1⟩ else ⟨0, size - k⟩

/-- The virtual address of the first byte of a span. -/
def Span.first (p : Span) (va : Word) : Word := va - BitVec.ofNat 64 p.back

/-- The translation of the first byte of a span: the span does not leave the aligned datum. -/
def Span.translation (p : Span) (t : Translation) : Translation := { t with pa := t.pa - BitVec.ofNat 40 p.back }

/-- A register of `size` bytes whose upper `count` bytes are replaced (R306, R310). -/
def mergeLeft (size count : Nat) (loaded old : Word) : Word :=
  let sh := 8 * (size - count)
  loaded <<< sh ||| (old &&& ~~~(BitVec.allOnes 64 <<< sh))

/-- A register whose lower `count` bytes are replaced (R307, R311). -/
def mergeRight (count : Nat) (loaded old : Word) : Word :=
  (old &&& (BitVec.allOnes 64 <<< (8 * count))) ||| loaded

end Sys2Proof.Machine
end

