-- ==== Sys2Proof/Machine/Branch.lean ====
section
/-! DEFINITION. Jumps and branches with their delay slot (43_branch_jump.md). -/

namespace Sys2Proof.Machine

/-- Completion of a conditional branch: taken, or not taken with the slot executed all the same (R341). -/
def State.branchIf (s : State) (c : Bool) (target : Word) : Access State :=
  .ok (if c then s.branchTo target else s.branchNot)

/-- Completion of a branch-likely: taken, or not taken with the slot nullified (R341). -/
def State.branchLikelyIf (s : State) (c : Bool) (target : Word) : Access State :=
  .ok (if c then s.branchTo target else s.skipSlot)

/-- The state with a link register holding the address of the instruction after the delay slot (R343). -/
def State.link (s : State) (rd : Reg) : State := s.setReg rd (s.pc + 8)

/-- A branch-and-link must not use r31 as its source (R341, R358, log 49). -/
def needLinkSource (rs : Reg) : Access Unit := if rs = 31 then .refuse .linkSourceRegister else .ok ()

/-- JALR's registers must differ (R345, log 49). -/
def needDistinct (rs rd : Reg) : Access Unit := if rs = rd then .refuse .linkSourceRegister else .ok ()

/-- A register compared with zero: less than or equal, signed (R348). -/
def lez (v : Word) : Bool := v.msb || v == 0

/-- J (R342). -/
def execJ (target : BitVec 26) (s : State) : Outcome :=
  ((needNotInSlot s).bind fun _ => .ok (s.branchTo (jumpTarget s.pc target))).finish s

/-- JAL (R343). -/
def execJal (target : BitVec 26) (s : State) : Outcome :=
  ((needNotInSlot s).bind fun _ => .ok ((s.link 31).branchTo (jumpTarget s.pc target))).finish s

/-- JR (R344). -/
def execJr (rs : Reg) (s : State) : Outcome :=
  ((needNotInSlot s).bind fun _ => .ok (s.branchTo (s.reg rs))).finish s

/-- JALR (R345). -/
def execJalr (rs rd : Reg) (s : State) : Outcome :=
  ((needNotInSlot s).bind fun _ => (needDistinct rs rd).bind fun _ =>
    .ok ((s.link rd).branchTo (s.reg rs))).finish s

/-- BEQ (R346). -/
def execBeq (rs rt : Reg) (offset : BitVec 16) (s : State) : Outcome :=
  ((needNotInSlot s).bind fun _ => s.branchIf (s.reg rs == s.reg rt) (branchTarget s.pc offset)).finish s

/-- BNE (R347). -/
def execBne (rs rt : Reg) (offset : BitVec 16) (s : State) : Outcome :=
  ((needNotInSlot s).bind fun _ => s.branchIf (s.reg rs != s.reg rt) (branchTarget s.pc offset)).finish s

/-- BEQL (R352). -/
def execBeql (rs rt : Reg) (offset : BitVec 16) (s : State) : Outcome :=
  ((needNotInSlot s).bind fun _ => s.branchLikelyIf (s.reg rs == s.reg rt) (branchTarget s.pc offset)).finish s

/-- BNEL (R353). -/
def execBnel (rs rt : Reg) (offset : BitVec 16) (s : State) : Outcome :=
  ((needNotInSlot s).bind fun _ => s.branchLikelyIf (s.reg rs != s.reg rt) (branchTarget s.pc offset)).finish s

/-- BLEZ (R348). -/
def execBlez (rs : Reg) (offset : BitVec 16) (s : State) : Outcome :=
  ((needNotInSlot s).bind fun _ => s.branchIf (lez (s.reg rs)) (branchTarget s.pc offset)).finish s

/-- BGTZ (R349). -/
def execBgtz (rs : Reg) (offset : BitVec 16) (s : State) : Outcome :=
  ((needNotInSlot s).bind fun _ => s.branchIf (!lez (s.reg rs)) (branchTarget s.pc offset)).finish s

/-- BLTZ (R350). -/
def execBltz (rs : Reg) (offset : BitVec 16) (s : State) : Outcome :=
  ((needNotInSlot s).bind fun _ => s.branchIf ((s.reg rs).msb) (branchTarget s.pc offset)).finish s

/-- BGEZ (R351). -/
def execBgez (rs : Reg) (offset : BitVec 16) (s : State) : Outcome :=
  ((needNotInSlot s).bind fun _ => s.branchIf (!(s.reg rs).msb) (branchTarget s.pc offset)).finish s

/-- BLEZL (R354). -/
def execBlezl (rs : Reg) (offset : BitVec 16) (s : State) : Outcome :=
  ((needNotInSlot s).bind fun _ => s.branchLikelyIf (lez (s.reg rs)) (branchTarget s.pc offset)).finish s

/-- BGTZL (R355). -/
def execBgtzl (rs : Reg) (offset : BitVec 16) (s : State) : Outcome :=
  ((needNotInSlot s).bind fun _ => s.branchLikelyIf (!lez (s.reg rs)) (branchTarget s.pc offset)).finish s

/-- BLTZL (R356). -/
def execBltzl (rs : Reg) (offset : BitVec 16) (s : State) : Outcome :=
  ((needNotInSlot s).bind fun _ => s.branchLikelyIf ((s.reg rs).msb) (branchTarget s.pc offset)).finish s

/-- BGEZL (R357). -/
def execBgezl (rs : Reg) (offset : BitVec 16) (s : State) : Outcome :=
  ((needNotInSlot s).bind fun _ => s.branchLikelyIf (!(s.reg rs).msb) (branchTarget s.pc offset)).finish s

/-- BLTZAL: r31 is written whether or not the branch is taken (R358). -/
def execBltzal (rs : Reg) (offset : BitVec 16) (s : State) : Outcome :=
  ((needNotInSlot s).bind fun _ => (needLinkSource rs).bind fun _ =>
    (s.link 31).branchIf ((s.reg rs).msb) (branchTarget s.pc offset)).finish s

/-- BGEZAL: r31 is written whether or not the branch is taken (R359). -/
def execBgezal (rs : Reg) (offset : BitVec 16) (s : State) : Outcome :=
  ((needNotInSlot s).bind fun _ => (needLinkSource rs).bind fun _ =>
    (s.link 31).branchIf (!(s.reg rs).msb) (branchTarget s.pc offset)).finish s

/-- BLTZALL: r31 is written whether or not the branch is taken (R360). -/
def execBltzall (rs : Reg) (offset : BitVec 16) (s : State) : Outcome :=
  ((needNotInSlot s).bind fun _ => (needLinkSource rs).bind fun _ =>
    (s.link 31).branchLikelyIf ((s.reg rs).msb) (branchTarget s.pc offset)).finish s

/-- BGEZALL: r31 is written whether or not the branch is taken (R361). -/
def execBgezall (rs : Reg) (offset : BitVec 16) (s : State) : Outcome :=
  ((needNotInSlot s).bind fun _ => (needLinkSource rs).bind fun _ =>
    (s.link 31).branchLikelyIf (!(s.reg rs).msb) (branchTarget s.pc offset)).finish s

end Sys2Proof.Machine
end

