-- ==== Sys2Proof/Machine/Float.lean ====
section
/-! DEFINITION. IEEE 754 arithmetic as the spec uses it: exact results, one rounding, denormals flushed or left to the
kernel (45_fp_arith.md R415, R418, R419, R432, R440; logs 22 to 27). -/

namespace Sys2Proof.Machine

/-- A binary floating-point format: the bits of its significand and of its exponent (R25). -/
structure FloatFormat where
  prec : Nat
  expBits : Nat
  deriving DecidableEq, Repr

/-- S: IEEE single (R25). -/
def FloatFormat.single : FloatFormat := ⟨24, 8⟩

/-- D: IEEE double (R25). -/
def FloatFormat.double : FloatFormat := ⟨53, 11⟩

/-- The exponent bias: 127 or 1023 (R25). -/
def FloatFormat.bias (f : FloatFormat) : Nat := 2 ^ (f.expBits - 1) - 1

/-- The exponent of the smallest normal number. -/
def FloatFormat.emin (f : FloatFormat) : Int := 1 - (f.bias : Int)

/-- The exponent of the largest finite number. -/
def FloatFormat.emax (f : FloatFormat) : Int := (f.bias : Int)

/-- The fraction field of a number. -/
def FloatFormat.fraction (f : FloatFormat) (w : Word) : Nat := w.toNat % 2 ^ (f.prec - 1)

/-- The exponent field of a number. -/
def FloatFormat.exponent (f : FloatFormat) (w : Word) : Nat := w.toNat / 2 ^ (f.prec - 1) % 2 ^ f.expBits

/-- The sign of a number. -/
def FloatFormat.sign (f : FloatFormat) (w : Word) : Bool := w.getLsbD (f.prec + f.expBits - 1)

/-- A denormalized number: exponent field 0, fraction not 0. -/
def FloatFormat.denormal (f : FloatFormat) (w : Word) : Bool := f.exponent w == 0 && f.fraction w != 0

/-- The number with the given fields. -/
def FloatFormat.pack (f : FloatFormat) (neg : Bool) (exponent fraction : Nat) : Word :=
  BitVec.ofNat 64 ((neg.toNat * 2 ^ f.expBits + exponent) * 2 ^ (f.prec - 1) + fraction)

/-- Zero with a sign. -/
def FloatFormat.zero (f : FloatFormat) (neg : Bool) : Word := f.pack neg 0 0

/-- Infinity with a sign. -/
def FloatFormat.infinity (f : FloatFormat) (neg : Bool) : Word := f.pack neg (2 ^ f.expBits - 1) 0

/-- The largest finite number with a sign. -/
def FloatFormat.largest (f : FloatFormat) (neg : Bool) : Word :=
  f.pack neg (2 ^ f.expBits - 2) (2 ^ (f.prec - 1) - 1)

/-- The smallest normal number with a sign. -/
def FloatFormat.smallestNormal (f : FloatFormat) (neg : Bool) : Word := f.pack neg 1 0

/-- Some quiet NaN: its sign and payload are free; the most-significant fraction bit is 0 (R419, U27, log 23). -/
def FloatFormat.quietNan (f : FloatFormat) (draws : Nat) : Word :=
  let w := Config.freeWord .nanPayload draws
  let fraction := w.toNat % 2 ^ (f.prec - 2)
  f.pack (w.getLsbD 63) (2 ^ f.expBits - 1) (if fraction = 0 then 1 else fraction)

/-- The value of a number: a finite one is `m * 2 ^ e`, with a sign that zero has too. -/
inductive FloatVal where
  | nan (signaling : Bool)
  | inf (neg : Bool)
  | fin (neg : Bool) (m : Nat) (e : Int)
  deriving DecidableEq, Repr

/-- The value of a number's bits (R25). A NaN whose most-significant fraction bit is 1 is signaling (R419, log 23). -/
def FloatFormat.value (f : FloatFormat) (w : Word) : FloatVal :=
  let e := f.exponent w
  let m := f.fraction w
  if e = 2 ^ f.expBits - 1 then
    if m = 0 then .inf (f.sign w) else .nan (m / 2 ^ (f.prec - 2) == 1)
  else if e = 0 then .fin (f.sign w) m (f.emin - (f.prec - 1 : Nat))
  else .fin (f.sign w) (m + 2 ^ (f.prec - 1)) (e - f.bias - (f.prec - 1 : Nat))

/-- The value with the other sign. -/
def FloatVal.negate : FloatVal → FloatVal
  | .nan q => .nan q
  | .inf n => .inf (!n)
  | .fin n m e => .fin (!n) m e

/-- Whether it is a NaN. -/
def FloatVal.isNan : FloatVal → Bool
  | .nan _ => true
  | _ => false

/-- Whether it is a signaling NaN. -/
def FloatVal.isSignaling : FloatVal → Bool
  | .nan q => q
  | _ => false

/-- What decides an operation besides its operands: FSR.RM, whether denormals are flushed (else they are left to the kernel),
and the draw its free values take (R415, R418). -/
structure FloatMode where
  rm : BitVec 2
  flush : Bool
  draws : Nat
  deriving DecidableEq, Repr

/-- The result of an operation: its bits, the exceptions raised, and whether E is raised instead (R417, R418). -/
structure FloatResult where
  value : Word
  raised : BitVec 5
  e : Bool
  deriving DecidableEq, Repr

/-- An exact result: a finite one is `(m + s) * 2 ^ e` with `0 < s < 1` when sticky, else `s = 0`. -/
inductive Exact where
  | nan
  | invalid
  | divZero (neg : Bool)
  | inf (neg : Bool)
  | fin (neg : Bool) (m : Nat) (e : Int) (sticky : Bool)
  deriving DecidableEq, Repr

/-! ## Rounding (R415) -/

/-- `m / 2 ^ k` rounded to an integer in a rounding mode, and whether that was inexact. RM: 0 to nearest even, 1 toward zero,
2 toward +infinity, 3 toward -infinity (R54). -/
def roundShift (rm : BitVec 2) (neg : Bool) (m k : Nat) (sticky : Bool) : Nat × Bool :=
  if k = 0 then (m, sticky)
  else
    let q := m / 2 ^ k
    let r := m % 2 ^ k
    let half := 2 ^ (k - 1)
    let inexact := r != 0 || sticky
    let up :=
      if rm = 0 then decide (half < r) || (r == half && (sticky || q % 2 == 1))
      else if rm = 2 then inexact && !neg
      else if rm = 3 then inexact && neg
      else false
    (if up then q + 1 else q, inexact)

/-- The result of an overflow: infinity or the largest finite number, by the rounding mode (R415). -/
def FloatFormat.overflow (f : FloatFormat) (rm : BitVec 2) (neg : Bool) : FloatResult :=
  let toInfinity := rm = 0 ∨ (rm = 2 ∧ neg = false) ∨ (rm = 3 ∧ neg = true)
  ⟨if toInfinity then f.infinity neg else f.largest neg, flagO ||| flagI, false⟩

/-- A non-zero result smaller than the smallest normal number: flushed to zero, or left to the kernel; where it rounds up to
the smallest normal number, that number is delivered by a free choice (R418, D31, log 22). -/
def FloatFormat.tiny (f : FloatFormat) (mode : FloatMode) (neg : Bool) (m : Nat) (e : Int) (sticky : Bool) :
    FloatResult :=
  let k := f.emin - (f.prec - 1 : Nat) - e
  if 0 < k ∧ (roundShift mode.rm neg m k.toNat sticky).1 = 2 ^ (f.prec - 1) ∧
      Config.freeBool .roundUpToNormal mode.draws = true then
    ⟨f.smallestNormal neg, flagI, false⟩
  else if mode.flush then ⟨f.zero neg, Config.flushResultFlags, false⟩
  else ⟨0, 0, true⟩

/-- A non-zero finite result rounded to the format (R415, R418). -/
def FloatFormat.round (f : FloatFormat) (mode : FloatMode) (neg : Bool) (m : Nat) (e : Int) (sticky : Bool) :
    FloatResult :=
  let lead := e + (m.log2 : Int)
  if lead < f.emin then f.tiny mode neg m e sticky
  else
    let bits := m.log2 + 1
    let r := if bits ≤ f.prec then (m * 2 ^ (f.prec - bits), sticky) else roundShift mode.rm neg m (bits - f.prec) sticky
    let carry := r.1 = 2 ^ f.prec
    let q := if carry then 2 ^ (f.prec - 1) else r.1
    let lead := if carry then lead + 1 else lead
    if f.emax < lead then f.overflow mode.rm neg
    else ⟨f.pack neg (lead + f.bias).toNat (q - 2 ^ (f.prec - 1)), if r.2 then flagI else 0, false⟩

/-- The delivered result of an exact result (R415). -/
def FloatFormat.deliver (f : FloatFormat) (mode : FloatMode) : Exact → FloatResult
  | .nan => ⟨f.quietNan mode.draws, 0, false⟩
  | .invalid => ⟨f.quietNan mode.draws, flagV, false⟩
  | .divZero neg => ⟨f.infinity neg, flagZ, false⟩
  | .inf neg => ⟨f.infinity neg, 0, false⟩
  | .fin neg m e sticky => if m = 0 then ⟨f.zero neg, 0, false⟩ else f.round mode neg m e sticky

/-! ## Operands (R418, R419) -/

/-- The value of an operand; a denormalized one is zero of the same sign when denormals are flushed (R418). -/
def FloatFormat.operand (f : FloatFormat) (mode : FloatMode) (w : Word) : FloatVal :=
  if f.denormal w && mode.flush then .fin (f.sign w) 0 0 else f.value w

/-- An arithmetic operation on operands of one format: a denormalized operand that is not flushed raises E, a signaling NaN
is invalid, a quiet NaN gives a NaN, else the exact result is delivered (R415, R418, R419). -/
def floatOp (mode : FloatMode) (src : FloatFormat) (ws : List Word) (r : FloatResult)
    (invalid nan : FloatResult) : FloatResult :=
  let denormal := ws.any src.denormal
  if denormal && !mode.flush then ⟨0, 0, true⟩
  else
    let d :=
      if ws.any fun w => (src.value w).isSignaling then invalid
      else if ws.any fun w => (src.value w).isNan then nan
      else r
    if denormal then { d with raised := d.raised ||| Config.flushOperandFlags } else d

/-- An arithmetic operation with a floating-point result. -/
def floatArith (mode : FloatMode) (src dst : FloatFormat) (ws : List Word) (r : FloatResult) : FloatResult :=
  floatOp mode src ws r (dst.deliver mode .invalid) (dst.deliver mode .nan)

/-! ## Exact operations -/

/-- A signed integer scaled to an exponent. -/
def scaled (neg : Bool) (m : Nat) (e low : Int) : Int :=
  let n := ((m * 2 ^ (e - low).toNat : Nat) : Int)
  if neg then -n else n

/-- The exact sum of two finite values. A zero sum has the sign of both operands when they agree, else it is negative only
when rounding toward -infinity (R402). -/
def addFinite (rm : BitVec 2) (an : Bool) (am : Nat) (ae : Int) (bn : Bool) (bm : Nat) (be : Int) : Exact :=
  let low := min ae be
  let t := scaled an am ae low + scaled bn bm be low
  if t = 0 then .fin (if an = bn then an else rm == 3) 0 0 false
  else .fin (decide (t < 0)) t.natAbs low false

/-- The exact sum (R402). -/
def addExact (rm : BitVec 2) : FloatVal → FloatVal → Exact
  | .fin an am ae, .fin bn bm be => addFinite rm an am ae bn bm be
  | .inf a, .inf b => if a = b then .inf a else .invalid
  | .inf a, .fin _ _ _ => .inf a
  | .fin _ _ _, .inf b => .inf b
  | _, _ => .nan

/-- The exact product (R404). -/
def mulExact : FloatVal → FloatVal → Exact
  | .fin an am ae, .fin bn bm be => .fin (an ^^ bn) (am * bm) (ae + be) false
  | .inf a, .inf b => .inf (a ^^ b)
  | .inf a, .fin bn bm _ => if bm = 0 then .invalid else .inf (a ^^ bn)
  | .fin an am _, .inf b => if am = 0 then .invalid else .inf (an ^^ b)
  | _, _ => .nan

/-- The quotient of two non-zero integers to more bits than the format holds (R405). -/
def divFinite (prec : Nat) (neg : Bool) (am : Nat) (ae : Int) (bm : Nat) (be : Int) : Exact :=
  let k := prec + 2 + bm.log2
  .fin neg (am * 2 ^ k / bm) (ae - be - k) (am * 2 ^ k % bm != 0)

/-- The exact quotient (R405). -/
def divExact (prec : Nat) : FloatVal → FloatVal → Exact
  | .fin an am ae, .fin bn bm be =>
    if bm = 0 then (if am = 0 then .invalid else .divZero (an ^^ bn))
    else if am = 0 then .fin (an ^^ bn) 0 0 false
    else divFinite prec (an ^^ bn) am ae bm be
  | .inf _, .inf _ => .invalid
  | .inf a, .fin bn _ _ => .inf (a ^^ bn)
  | .fin an _ _, .inf b => .fin (an ^^ b) 0 0 false
  | _, _ => .nan

/-- The bits of the integer square root below bit `i`, given the bits from `i` up. -/
def isqrtBits (n : Nat) : Nat → Nat → Nat
  | 0, r => r
  | i + 1, r => if (r + 2 ^ i) * (r + 2 ^ i) ≤ n then isqrtBits n i (r + 2 ^ i) else isqrtBits n i r

/-- The integer square root. -/
def isqrt (n : Nat) : Nat := isqrtBits n (n.log2 / 2 + 1) 0

/-- The square root of a positive finite value to more bits than the format holds (R406). -/
def sqrtFinite (prec : Nat) (m : Nat) (e : Int) : Exact :=
  let t := 2 * prec + 4 + ((e % 2).toNat)
  let n := m * 2 ^ t
  let r := isqrt n
  .fin false r ((e - t) / 2) (r * r != n)

/-- The exact square root (R406). -/
def sqrtExact (prec : Nat) : FloatVal → Exact
  | .fin neg m e => if m = 0 then .fin neg 0 0 false else if neg then .invalid else sqrtFinite prec m e
  | .inf neg => if neg then .invalid else .inf false
  | .nan _ => .nan

/-- The reciprocal square root of a positive finite value to more bits than the format holds (R410). -/
def rsqrtFinite (prec : Nat) (m : Nat) (e : Int) : Exact :=
  let t0 := 2 * prec + 6 + m.log2
  let t := t0 + ((e + t0) % 2).toNat
  let n := 2 ^ t / m
  let r := isqrt n
  .fin false r ((-e - t) / 2) (r * r * m != 2 ^ t)

/-- The exact reciprocal square root; the sign of the infinity of minus zero is given (R410). -/
def rsqrtExact (prec : Nat) (zeroSign : Bool) : FloatVal → Exact
  | .fin neg m e =>
    if m = 0 then .divZero (neg && zeroSign) else if neg then .invalid else rsqrtFinite prec m e
  | .inf neg => if neg then .invalid else .fin false 0 0 false
  | .nan _ => .nan

/-- The exact product plus a third value, with no rounding between (R411). -/
def fmaExact (rm : BitVec 2) (a b c : FloatVal) : Exact :=
  match mulExact a b with
  | .fin n m e _ => addExact rm (.fin n m e) c
  | .inf n => addExact rm (.inf n) c
  | .invalid => .invalid
  | _ => .nan

/-! ## Approximations (R409, R410; U25, log 24) -/

/-- Whether an error of `d` half units in the last place keeps the significand `2 * q / 2 ^ k` (plus sticky) within `ulp`
units: the result must have the format's precision, or be in the binade below. -/
def errorAllowed (prec ulp q k : Nat) (sticky : Bool) (d : Int) : Bool :=
  let c : Int := 2 * (q / 2 ^ k : Nat) + d
  let r : Int := (q % 2 ^ k : Nat)
  let unit : Int := (2 ^ (k - 1) : Nat)
  decide ((d - 2 * (ulp : Int)) * unit ≤ r) &&
    (if sticky then decide (r < (d + 2 * (ulp : Int)) * unit) else decide (r ≤ (d + 2 * (ulp : Int)) * unit)) &&
    decide ((2 ^ (prec - 1) : Nat) ≤ c) && (decide (c < (2 ^ prec : Nat)) || c % 2 == 0)

/-- An approximated result: the truncated exact result with a free error within the bound; Inexact is free unless the result
is exact (R409, R410). -/
def FloatFormat.approximate (f : FloatFormat) (mode : FloatMode) (site : FreeSite) (ulp : Nat) : Exact → FloatResult
  | .fin neg q e sticky =>
    if q = 0 then f.deliver mode (.fin neg 0 0 false)
    else
      let k := q.log2 + 1 - f.prec
      let free := Config.freeInt site mode.draws
      let d := if errorAllowed f.prec ulp q k sticky free then free else 0
      let r := f.round { mode with rm := 1 } neg (2 * (q / 2 ^ k : Nat) + d).toNat (e + k - 1) false
      if q % 2 ^ k = 0 ∧ sticky = false ∧ d = 0 then r
      else if Config.freeBool .recipInexact mode.draws then { r with raised := r.raised ||| flagI }
      else r
  | x => f.deliver mode x

/-! ## Operations -/

/-- ADD (R402). -/
def floatAdd (f : FloatFormat) (mode : FloatMode) (a b : Word) : FloatResult :=
  floatArith mode f f [a, b] (f.deliver mode (addExact mode.rm (f.operand mode a) (f.operand mode b)))

/-- SUB (R403). -/
def floatSub (f : FloatFormat) (mode : FloatMode) (a b : Word) : FloatResult :=
  floatArith mode f f [a, b] (f.deliver mode (addExact mode.rm (f.operand mode a) (f.operand mode b).negate))

/-- MUL (R404). -/
def floatMul (f : FloatFormat) (mode : FloatMode) (a b : Word) : FloatResult :=
  floatArith mode f f [a, b] (f.deliver mode (mulExact (f.operand mode a) (f.operand mode b)))

/-- DIV (R405). -/
def floatDiv (f : FloatFormat) (mode : FloatMode) (a b : Word) : FloatResult :=
  floatArith mode f f [a, b] (f.deliver mode (divExact f.prec (f.operand mode a) (f.operand mode b)))

/-- SQRT (R406). -/
def floatSqrt (f : FloatFormat) (mode : FloatMode) (a : Word) : FloatResult :=
  floatArith mode f f [a] (f.deliver mode (sqrtExact f.prec (f.operand mode a)))

/-- RECIP (R409). -/
def floatRecip (f : FloatFormat) (mode : FloatMode) (a : Word) : FloatResult :=
  floatArith mode f f [a]
    (f.approximate mode .recipError Config.recipUlp (divExact f.prec (.fin false 1 0) (f.operand mode a)))

/-- RSQRT (R410). -/
def floatRsqrt (f : FloatFormat) (mode : FloatMode) (a : Word) : FloatResult :=
  floatArith mode f f [a]
    (f.approximate mode .rsqrtError Config.rsqrtUlp
      (rsqrtExact f.prec (Config.freeBool .rsqrtZeroSign mode.draws) (f.operand mode a)))

/-- MADD (R411): a product plus an addend, rounded once. -/
def floatMadd (f : FloatFormat) (mode : FloatMode) (a b c : Word) : FloatResult :=
  floatArith mode f f [a, b, c]
    (f.deliver mode (fmaExact mode.rm (f.operand mode a) (f.operand mode b) (f.operand mode c)))

/-- MSUB (R412): a product less a subtrahend, rounded once. -/
def floatMsub (f : FloatFormat) (mode : FloatMode) (a b c : Word) : FloatResult :=
  floatArith mode f f [a, b, c]
    (f.deliver mode (fmaExact mode.rm (f.operand mode a) (f.operand mode b) (f.operand mode c).negate))

/-- The sign bit of a format as a mask. -/
def FloatFormat.signMask (f : FloatFormat) : Word := 1#64 <<< (f.prec + f.expBits - 1)

/-- The negated forms invert the sign of the rounded result (R413, R414). -/
def FloatFormat.negateResult (f : FloatFormat) (r : FloatResult) : FloatResult :=
  { r with value := r.value ^^^ f.signMask }

/-- NMADD (R413). -/
def floatNmadd (f : FloatFormat) (mode : FloatMode) (a b c : Word) : FloatResult :=
  f.negateResult (floatMadd f mode a b c)

/-- NMSUB (R414). -/
def floatNmsub (f : FloatFormat) (mode : FloatMode) (a b c : Word) : FloatResult :=
  f.negateResult (floatMsub f mode a b c)

/-- ABS and NEG: only the sign changes and a denormalized operand is passed through; a signaling NaN is invalid, a quiet NaN
gives a quiet NaN (R407, R408). -/
def floatSign (f : FloatFormat) (mode : FloatMode) (a signed : Word) : FloatResult :=
  if (f.value a).isSignaling then f.deliver mode .invalid
  else if (f.value a).isNan then f.deliver mode .nan
  else ⟨signed, 0, false⟩

/-- ABS (R407). -/
def floatAbs (f : FloatFormat) (mode : FloatMode) (a : Word) : FloatResult := floatSign f mode a (a &&& ~~~f.signMask)

/-- NEG (R408). -/
def floatNeg (f : FloatFormat) (mode : FloatMode) (a : Word) : FloatResult := floatSign f mode a (a ^^^ f.signMask)

/-! ## Conversions (R432) -/

/-- A conversion that raises Invalid: the integer is a free value (U26, log 25). -/
def convertInvalid (mode : FloatMode) : FloatResult := ⟨Config.freeWord .convertRange mode.draws, flagV, false⟩

/-- A finite value rounded to an integer of `bits` bits, or Invalid when it does not fit (R432). -/
def integerOfFinite (mode : FloatMode) (rm : BitVec 2) (bits : Nat) (neg : Bool) (m : Nat) (e : Int) : FloatResult :=
  let r := if 0 ≤ e then (m * 2 ^ e.toNat, false) else roundShift rm neg m (-e).toNat false
  let n : Int := if neg then -(r.1 : Int) else r.1
  if -(2 ^ (bits - 1) : Int) ≤ n ∧ n < (2 ^ (bits - 1) : Int) then
    ⟨BitVec.ofInt 64 n, if r.2 then flagI else 0, false⟩
  else convertInvalid mode

/-- A conversion to an integer format in a fixed rounding mode (R420 to R427, R430, R431). -/
def floatToInteger (f : FloatFormat) (mode : FloatMode) (rm : BitVec 2) (bits : Nat) (a : Word) : FloatResult :=
  floatOp mode f [a]
    (match f.operand mode a with
      | .fin neg m e => integerOfFinite mode rm bits neg m e
      | _ => convertInvalid mode)
    (convertInvalid mode) (convertInvalid mode)

/-- A conversion between floating-point formats (R428, R429). -/
def floatConvert (src dst : FloatFormat) (mode : FloatMode) (a : Word) : FloatResult :=
  floatArith mode src dst [a]
    (match src.operand mode a with
      | .fin neg m e => dst.deliver mode (.fin neg m e false)
      | .inf neg => dst.deliver mode (.inf neg)
      | .nan _ => dst.deliver mode .nan)

/-- A conversion from an integer (R428, R429). -/
def integerToFloat (dst : FloatFormat) (mode : FloatMode) (n : Int) : FloatResult :=
  dst.deliver mode (.fin (decide (n < 0)) n.natAbs 0 false)

/-! ## Compare (R440) -/

/-- `a < b` for finite or infinite values. -/
def FloatVal.lt : FloatVal → FloatVal → Bool
  | .fin an am ae, .fin bn bm be => decide (scaled an am ae (min ae be) < scaled bn bm be (min ae be))
  | .inf a, .inf b => a && !b
  | .inf a, .fin _ _ _ => a
  | .fin _ _ _, .inf b => !b
  | _, _ => false

/-- `a = b` for finite or infinite values; +0 = -0. -/
def FloatVal.eq : FloatVal → FloatVal → Bool
  | .fin an am ae, .fin bn bm be => decide (scaled an am ae (min ae be) = scaled bn bm be (min ae be))
  | .inf a, .inf b => a == b
  | _, _ => false

/-- The result of a compare: the truth value, whether Invalid is raised, and whether E is raised. -/
structure CompareResult where
  holds : Bool
  raised : BitVec 5
  e : Bool
  deriving DecidableEq, Repr

/-- An operand of a compare: a denormalized one is flushed to zero or not, a free choice (R440, U28, log 27). -/
def FloatFormat.compareOperand (f : FloatFormat) (mode : FloatMode) (n : Nat) (w : Word) : FloatVal :=
  if f.denormal w && Config.freeBool (.compareFlush n) mode.draws then .fin (f.sign w) 0 0 else f.value w

/-- C.cond (R440). That a NaN compared with a denormalized operand records V beside E, where the free choice raises E, and that an
operand which is flushed sets no flag of FP_FLUSH_FLAGS (U28), is the model's (DESIGN CHOICE, log 27). -/
def floatCompare (f : FloatFormat) (mode : FloatMode) (cond : BitVec 4) (a b : Word) : CompareResult :=
  let x := f.compareOperand mode 0 a
  let y := f.compareOperand mode 1 b
  let unordered := x.isNan || y.isNan
  let invalid := unordered && (cond.getLsbD 3 || x.isSignaling || y.isSignaling)
  ⟨(cond.getLsbD 2 && x.lt y) || (cond.getLsbD 1 && x.eq y) || (cond.getLsbD 0 && unordered),
    if invalid then flagV else 0,
    (f.denormal a || f.denormal b) && !mode.flush && Config.freeBool .compareE mode.draws⟩

end Sys2Proof.Machine
end

