-- ==== Sys2Proof/Machine/FpRegs.lean ====
section
/-! DEFINITION. The floating-point registers and the way a floating-point instruction ends (R24 to R26, R401, R417). -/

namespace Sys2Proof.Machine

/-- A compare or branch that names a condition code other than 0 is a MIPS IV form (R489, R612). -/
def needXxForCc (s : State) (cc : CC) : Access Unit := if cc = 0 then .ok () else needXx s

/-! ## Register file (R24, R26) -/

/-- The register of the file that holds a floating-point register: with FR = 0 an odd one is the high half of the even one
below it (R26, log 21). -/
def State.fprHome (s : State) (r : Reg) : Reg := if s.statusView.fr then r else r &&& 0b11110#5

/-- The 64 bits at a register of the file. -/
def State.fprFile (s : State) (r : Reg) : Word := s.fpr[r.toNat]'r.isLt

/-- The state with one register of the file written, and the format it was written in. -/
def State.setFprFile (s : State) (r : Reg) (v : Word) (tag : FprTag) : State :=
  { s with fpr := s.fpr.set r.toNat v r.isLt, fprTag := s.fprTag.set r.toNat tag r.isLt }

/-- A 64-bit operand or an arithmetic operand names an even register when FR = 0 (R26, U31). -/
def needFprPair (s : State) (r : Reg) : Access Unit :=
  if !s.statusView.fr && r.getLsbD 0 then .refuse .oddFprPair else .ok ()

/-- Every register of a list is a legal 64-bit or arithmetic operand. -/
def needFprPairs (s : State) : List Reg → Access Unit
  | [] => .ok ()
  | r :: rs => (needFprPair s r).bind fun _ => needFprPairs s rs

/-- Whether a 32-bit register is the high half of its home (R26). -/
def State.fprHigh (s : State) (r : Reg) : Bool := !s.statusView.fr && r.getLsbD 0

/-- The bits of a 32-bit floating-point register, as loads, stores and moves see them (R26, R460). -/
def State.fprWord (s : State) (r : Reg) : BitVec 32 :=
  let v := s.fprFile (s.fprHome r)
  if s.fprHigh r then highWord v else lowWord v

/-- The free upper half that a 32-bit write leaves (R401, U24, log 20). -/
def State.freeUpper (s : State) : BitVec 32 := (Config.freeWord .fprUpper s.draws).setWidth 32

/-- The state after a load or move of 32 bits: plain bits. With FR = 1 the upper half becomes unspecified; with FR = 0 the
other half of the pair stays (R26, R401, R460). That with FR = 0 the whole pair then counts as plain bits, also where an operation
wrote its other half, is the model's choice (log 20). -/
def State.moveFprWord (s : State) (r : Reg) (v : BitVec 32) : State :=
  let home := s.fprHome r
  let old := s.fprFile home
  let new : Word :=
    if s.statusView.fr then s.freeUpper ++ v
    else if s.fprHigh r then v ++ lowWord old
    else highWord old ++ v
  s.setFprFile home new .plain

/-- The state after a load or move of 64 bits: plain bits (R461, R483). -/
def State.moveFpr (s : State) (r : Reg) (v : Word) : State := s.setFprFile r v .plain

/-- The state after an operation's 32-bit result: the upper half becomes unspecified (R401). -/
def State.resultFprWord (s : State) (r : Reg) (v : BitVec 32) (tag : FprTag) : State :=
  s.setFprFile r (s.freeUpper ++ v) tag

/-- The n-th operand of an operation, read in a format: a register last written by an operation in another format gives an
unspecified value (R401, U24, log 20). A 32-bit operand is in the low half. -/
def State.operandFpr (s : State) (r : Reg) (tag : FprTag) (n : Nat) : Word :=
  let last := s.fprTag[r.toNat]'r.isLt
  if last = .plain ∨ last = tag then s.fprFile r else Config.freeWord (.fprFormat n) s.draws

/-- An operand of 32 bits, zero extended. -/
def State.operandWord (s : State) (r : Reg) (tag : FprTag) (n : Nat) : Word :=
  (lowWord (s.operandFpr r tag n)).setWidth 64

/-! ## Formats of results and operands -/

/-- The floating-point format an operand tag stands for. -/
def FprTag.isDouble (t : FprTag) : Bool := t == .double || t == .fixedL

/-- An operand in its format: the whole register, or its low half zero extended (R401). -/
def State.operandIn (s : State) (r : Reg) (tag : FprTag) (n : Nat) : Word :=
  if tag.isDouble then s.operandFpr r tag n else s.operandWord r tag n

/-- The state after a result is written in its format (R401). -/
def State.writeResult (s : State) (r : Reg) (tag : FprTag) (v : Word) : State :=
  if tag.isDouble then s.setFprFile r v tag else s.resultFprWord r (lowWord v) tag

/-! ## How an operation ends (R417) -/

/-- What decides an operation besides its operands (R415, R418): performance mode acts as if FS were set. -/
def State.floatMode (s : State) : FloatMode := ⟨s.fsr.rm, !s.statusView.dm || s.fsr.fs, s.draws⟩

/-- The end of an operation (R417): the FSR records its exceptions; in precise mode an enabled one, or E, traps with no result
written; otherwise the result is written. -/
def State.finishFloat (s : State) (raised : BitVec 5) (e : Bool) (write : State → State) : Access State :=
  let precise := s.statusView.dm
  let t := { s with fsr := s.fsr.afterOperation precise raised e s.draws }
  .ok (if precise && s.fsr.traps raised e then takeException .floatingPoint t else write t)

/-- The end of an operation that writes a floating-point register. -/
def State.finishResult (s : State) (fd : Reg) (tag : FprTag) (r : FloatResult) : Access State :=
  s.finishFloat r.raised r.e fun t => (t.writeResult fd tag r.value).advance

end Sys2Proof.Machine
end

