-- ==== Sys2Proof/Machine/FpArith.lean ====
section
/-! DEFINITION. Floating-point arithmetic, conversion and compare instructions (45_fp_arith.md). -/

namespace Sys2Proof.Machine

/-- An operation of one operand on a format (R400, R401, R417). -/
def State.floatUnary (s : State) (fd fs : Reg) (src dst : FprTag) (op : FloatMode → Word → FloatResult) : Access State :=
  (needFprPairs s [fd, fs]).bind fun _ => s.finishResult fd dst (op s.floatMode (s.operandIn fs src 0))

/-- An operation of two operands on a format (R400, R401, R417). -/
def State.floatBinary (s : State) (fd fs ft : Reg) (tag : FprTag) (op : FloatMode → Word → Word → FloatResult) :
    Access State :=
  (needFprPairs s [fd, fs, ft]).bind fun _ =>
    s.finishResult fd tag (op s.floatMode (s.operandIn fs tag 0) (s.operandIn ft tag 1))

/-- An operation of three operands on a format (R411 to R414). -/
def State.floatTernary (s : State) (fd fr fs ft : Reg) (tag : FprTag)
    (op : FloatMode → Word → Word → Word → FloatResult) : Access State :=
  (needFprPairs s [fd, fr, fs, ft]).bind fun _ =>
    s.finishResult fd tag (op s.floatMode (s.operandIn fs tag 0) (s.operandIn ft tag 1) (s.operandIn fr tag 2))

/-- A compare (R440): the condition code is written and busy for one instruction (R670); in precise mode an enabled Invalid,
or E, traps with the condition code unchanged. -/
def State.floatCompare (s : State) (f : FloatFormat) (tag : FprTag) (cond : BitVec 4) (ft fs : Reg) (cc : CC) :
    Access State :=
  (needFprPairs s [fs, ft]).bind fun _ =>
    let r := Machine.floatCompare f s.floatMode cond (s.operandIn fs tag 0) (s.operandIn ft tag 1)
    s.finishFloat r.raised r.e fun t =>
      { t.advance with fsr := t.fsr.setCc cc r.holds, fccBusy := 1#8 <<< cc.toNat }

/-- The integer that a 32-bit fixed operand holds. -/
def fixedWValue (v : Word) : Int := (lowWord v).toInt

/-- The integer that a 64-bit fixed operand holds. -/
def fixedLValue (v : Word) : Int := v.toInt

/-- ADD.S (R402). -/
def execAddS (ft fs fd : Reg) (s : State) : Outcome :=
  ((needCop1 s).bind fun _ => s.floatBinary fd fs ft .single (floatAdd .single)).finish s

/-- ADD.D (R402). -/
def execAddD (ft fs fd : Reg) (s : State) : Outcome :=
  ((needCop1 s).bind fun _ => s.floatBinary fd fs ft .double (floatAdd .double)).finish s

/-- SUB.S (R403). -/
def execSubS (ft fs fd : Reg) (s : State) : Outcome :=
  ((needCop1 s).bind fun _ => s.floatBinary fd fs ft .single (floatSub .single)).finish s

/-- SUB.D (R403). -/
def execSubD (ft fs fd : Reg) (s : State) : Outcome :=
  ((needCop1 s).bind fun _ => s.floatBinary fd fs ft .double (floatSub .double)).finish s

/-- MUL.S (R404). -/
def execMulS (ft fs fd : Reg) (s : State) : Outcome :=
  ((needCop1 s).bind fun _ => s.floatBinary fd fs ft .single (floatMul .single)).finish s

/-- MUL.D (R404). -/
def execMulD (ft fs fd : Reg) (s : State) : Outcome :=
  ((needCop1 s).bind fun _ => s.floatBinary fd fs ft .double (floatMul .double)).finish s

/-- DIV.S (R405). -/
def execDivS (ft fs fd : Reg) (s : State) : Outcome :=
  ((needCop1 s).bind fun _ => s.floatBinary fd fs ft .single (floatDiv .single)).finish s

/-- DIV.D (R405). -/
def execDivD (ft fs fd : Reg) (s : State) : Outcome :=
  ((needCop1 s).bind fun _ => s.floatBinary fd fs ft .double (floatDiv .double)).finish s

/-- SQRT.S (R406). -/
def execSqrtS (fs fd : Reg) (s : State) : Outcome :=
  ((needCop1 s).bind fun _ => s.floatUnary fd fs .single .single (floatSqrt .single)).finish s

/-- SQRT.D (R406). -/
def execSqrtD (fs fd : Reg) (s : State) : Outcome :=
  ((needCop1 s).bind fun _ => s.floatUnary fd fs .double .double (floatSqrt .double)).finish s

/-- ABS.S (R407). -/
def execAbsS (fs fd : Reg) (s : State) : Outcome :=
  ((needCop1 s).bind fun _ => s.floatUnary fd fs .single .single (floatAbs .single)).finish s

/-- ABS.D (R407). -/
def execAbsD (fs fd : Reg) (s : State) : Outcome :=
  ((needCop1 s).bind fun _ => s.floatUnary fd fs .double .double (floatAbs .double)).finish s

/-- NEG.S (R408). -/
def execNegS (fs fd : Reg) (s : State) : Outcome :=
  ((needCop1 s).bind fun _ => s.floatUnary fd fs .single .single (floatNeg .single)).finish s

/-- NEG.D (R408). -/
def execNegD (fs fd : Reg) (s : State) : Outcome :=
  ((needCop1 s).bind fun _ => s.floatUnary fd fs .double .double (floatNeg .double)).finish s

/-- RECIP.S (R409). -/
def execRecipS (fs fd : Reg) (s : State) : Outcome :=
  ((needCop1 s).bind fun _ => (needXx s).bind fun _ => s.floatUnary fd fs .single .single (floatRecip .single)).finish s

/-- RECIP.D (R409). -/
def execRecipD (fs fd : Reg) (s : State) : Outcome :=
  ((needCop1 s).bind fun _ => (needXx s).bind fun _ => s.floatUnary fd fs .double .double (floatRecip .double)).finish s

/-- RSQRT.S (R410). -/
def execRsqrtS (fs fd : Reg) (s : State) : Outcome :=
  ((needCop1 s).bind fun _ => (needXx s).bind fun _ => s.floatUnary fd fs .single .single (floatRsqrt .single)).finish s

/-- RSQRT.D (R410). -/
def execRsqrtD (fs fd : Reg) (s : State) : Outcome :=
  ((needCop1 s).bind fun _ => (needXx s).bind fun _ => s.floatUnary fd fs .double .double (floatRsqrt .double)).finish s

/-- MADD.S (R411). -/
def execMaddS (fr ft fs fd : Reg) (s : State) : Outcome :=
  ((needCop1 s).bind fun _ => (needXx s).bind fun _ => s.floatTernary fd fr fs ft .single (floatMadd .single)).finish s

/-- MADD.D (R411). -/
def execMaddD (fr ft fs fd : Reg) (s : State) : Outcome :=
  ((needCop1 s).bind fun _ => (needXx s).bind fun _ => s.floatTernary fd fr fs ft .double (floatMadd .double)).finish s

/-- MSUB.S (R412). -/
def execMsubS (fr ft fs fd : Reg) (s : State) : Outcome :=
  ((needCop1 s).bind fun _ => (needXx s).bind fun _ => s.floatTernary fd fr fs ft .single (floatMsub .single)).finish s

/-- MSUB.D (R412). -/
def execMsubD (fr ft fs fd : Reg) (s : State) : Outcome :=
  ((needCop1 s).bind fun _ => (needXx s).bind fun _ => s.floatTernary fd fr fs ft .double (floatMsub .double)).finish s

/-- NMADD.S (R413). -/
def execNmaddS (fr ft fs fd : Reg) (s : State) : Outcome :=
  ((needCop1 s).bind fun _ => (needXx s).bind fun _ => s.floatTernary fd fr fs ft .single (floatNmadd .single)).finish s

/-- NMADD.D (R413). -/
def execNmaddD (fr ft fs fd : Reg) (s : State) : Outcome :=
  ((needCop1 s).bind fun _ => (needXx s).bind fun _ => s.floatTernary fd fr fs ft .double (floatNmadd .double)).finish s

/-- NMSUB.S (R414). -/
def execNmsubS (fr ft fs fd : Reg) (s : State) : Outcome :=
  ((needCop1 s).bind fun _ => (needXx s).bind fun _ => s.floatTernary fd fr fs ft .single (floatNmsub .single)).finish s

/-- NMSUB.D (R414). -/
def execNmsubD (fr ft fs fd : Reg) (s : State) : Outcome :=
  ((needCop1 s).bind fun _ => (needXx s).bind fun _ => s.floatTernary fd fr fs ft .double (floatNmsub .double)).finish s

/-- ROUND.L.S (R420). -/
def execRoundLS (fs fd : Reg) (s : State) : Outcome :=
  ((needCop1 s).bind fun _ => (needUx s).bind fun _ => s.floatUnary fd fs .single .fixedL fun m => floatToInteger .single m 0 64).finish s

/-- ROUND.L.D (R420). -/
def execRoundLD (fs fd : Reg) (s : State) : Outcome :=
  ((needCop1 s).bind fun _ => (needUx s).bind fun _ => s.floatUnary fd fs .double .fixedL fun m => floatToInteger .double m 0 64).finish s

/-- TRUNC.L.S (R421). -/
def execTruncLS (fs fd : Reg) (s : State) : Outcome :=
  ((needCop1 s).bind fun _ => (needUx s).bind fun _ => s.floatUnary fd fs .single .fixedL fun m => floatToInteger .single m 1 64).finish s

/-- TRUNC.L.D (R421). -/
def execTruncLD (fs fd : Reg) (s : State) : Outcome :=
  ((needCop1 s).bind fun _ => (needUx s).bind fun _ => s.floatUnary fd fs .double .fixedL fun m => floatToInteger .double m 1 64).finish s

/-- CEIL.L.S (R422). -/
def execCeilLS (fs fd : Reg) (s : State) : Outcome :=
  ((needCop1 s).bind fun _ => (needUx s).bind fun _ => s.floatUnary fd fs .single .fixedL fun m => floatToInteger .single m 2 64).finish s

/-- CEIL.L.D (R422). -/
def execCeilLD (fs fd : Reg) (s : State) : Outcome :=
  ((needCop1 s).bind fun _ => (needUx s).bind fun _ => s.floatUnary fd fs .double .fixedL fun m => floatToInteger .double m 2 64).finish s

/-- FLOOR.L.S (R423). -/
def execFloorLS (fs fd : Reg) (s : State) : Outcome :=
  ((needCop1 s).bind fun _ => (needUx s).bind fun _ => s.floatUnary fd fs .single .fixedL fun m => floatToInteger .single m 3 64).finish s

/-- FLOOR.L.D (R423). -/
def execFloorLD (fs fd : Reg) (s : State) : Outcome :=
  ((needCop1 s).bind fun _ => (needUx s).bind fun _ => s.floatUnary fd fs .double .fixedL fun m => floatToInteger .double m 3 64).finish s

/-- ROUND.W.S (R424). -/
def execRoundWS (fs fd : Reg) (s : State) : Outcome :=
  ((needCop1 s).bind fun _ => s.floatUnary fd fs .single .fixedW fun m => floatToInteger .single m 0 32).finish s

/-- ROUND.W.D (R424). -/
def execRoundWD (fs fd : Reg) (s : State) : Outcome :=
  ((needCop1 s).bind fun _ => s.floatUnary fd fs .double .fixedW fun m => floatToInteger .double m 0 32).finish s

/-- TRUNC.W.S (R425). -/
def execTruncWS (fs fd : Reg) (s : State) : Outcome :=
  ((needCop1 s).bind fun _ => s.floatUnary fd fs .single .fixedW fun m => floatToInteger .single m 1 32).finish s

/-- TRUNC.W.D (R425). -/
def execTruncWD (fs fd : Reg) (s : State) : Outcome :=
  ((needCop1 s).bind fun _ => s.floatUnary fd fs .double .fixedW fun m => floatToInteger .double m 1 32).finish s

/-- CEIL.W.S (R426). -/
def execCeilWS (fs fd : Reg) (s : State) : Outcome :=
  ((needCop1 s).bind fun _ => s.floatUnary fd fs .single .fixedW fun m => floatToInteger .single m 2 32).finish s

/-- CEIL.W.D (R426). -/
def execCeilWD (fs fd : Reg) (s : State) : Outcome :=
  ((needCop1 s).bind fun _ => s.floatUnary fd fs .double .fixedW fun m => floatToInteger .double m 2 32).finish s

/-- FLOOR.W.S (R427). -/
def execFloorWS (fs fd : Reg) (s : State) : Outcome :=
  ((needCop1 s).bind fun _ => s.floatUnary fd fs .single .fixedW fun m => floatToInteger .single m 3 32).finish s

/-- FLOOR.W.D (R427). -/
def execFloorWD (fs fd : Reg) (s : State) : Outcome :=
  ((needCop1 s).bind fun _ => s.floatUnary fd fs .double .fixedW fun m => floatToInteger .double m 3 32).finish s

/-- CVT.W.S (R430). -/
def execCvtWS (fs fd : Reg) (s : State) : Outcome :=
  ((needCop1 s).bind fun _ => s.floatUnary fd fs .single .fixedW fun m => floatToInteger .single m m.rm 32).finish s

/-- CVT.W.D (R430). -/
def execCvtWD (fs fd : Reg) (s : State) : Outcome :=
  ((needCop1 s).bind fun _ => s.floatUnary fd fs .double .fixedW fun m => floatToInteger .double m m.rm 32).finish s

/-- CVT.L.S (R431). -/
def execCvtLS (fs fd : Reg) (s : State) : Outcome :=
  ((needCop1 s).bind fun _ => (needUx s).bind fun _ => s.floatUnary fd fs .single .fixedL fun m => floatToInteger .single m m.rm 64).finish s

/-- CVT.L.D (R431). -/
def execCvtLD (fs fd : Reg) (s : State) : Outcome :=
  ((needCop1 s).bind fun _ => (needUx s).bind fun _ => s.floatUnary fd fs .double .fixedL fun m => floatToInteger .double m m.rm 64).finish s

/-- CVT.S.D (R428). -/
def execCvtSD (fs fd : Reg) (s : State) : Outcome :=
  ((needCop1 s).bind fun _ => s.floatUnary fd fs .double .single (floatConvert .double .single)).finish s

/-- CVT.D.S (R429). -/
def execCvtDS (fs fd : Reg) (s : State) : Outcome :=
  ((needCop1 s).bind fun _ => s.floatUnary fd fs .single .double (floatConvert .single .double)).finish s

/-- CVT.S.W (R428). -/
def execCvtSW (fs fd : Reg) (s : State) : Outcome :=
  ((needCop1 s).bind fun _ => s.floatUnary fd fs .fixedW .single fun m v => integerToFloat .single m (fixedWValue v)).finish s

/-- CVT.S.L (R428). -/
def execCvtSL (fs fd : Reg) (s : State) : Outcome :=
  ((needCop1 s).bind fun _ => (needUx s).bind fun _ => s.floatUnary fd fs .fixedL .single fun m v => integerToFloat .single m (fixedLValue v)).finish s

/-- CVT.D.W (R429). -/
def execCvtDW (fs fd : Reg) (s : State) : Outcome :=
  ((needCop1 s).bind fun _ => s.floatUnary fd fs .fixedW .double fun m v => integerToFloat .double m (fixedWValue v)).finish s

/-- CVT.D.L (R429). -/
def execCvtDL (fs fd : Reg) (s : State) : Outcome :=
  ((needCop1 s).bind fun _ => (needUx s).bind fun _ => s.floatUnary fd fs .fixedL .double fun m v => integerToFloat .double m (fixedLValue v)).finish s

/-- C.F.S (R440). -/
def execCFS (ft fs : Reg) (cc : CC) (s : State) : Outcome :=
  ((needCop1 s).bind fun _ => (needXxForCc s cc).bind fun _ => s.floatCompare .single .single 0 ft fs cc).finish s

/-- C.UN.S (R440). -/
def execCUnS (ft fs : Reg) (cc : CC) (s : State) : Outcome :=
  ((needCop1 s).bind fun _ => (needXxForCc s cc).bind fun _ => s.floatCompare .single .single 1 ft fs cc).finish s

/-- C.EQ.S (R440). -/
def execCEqS (ft fs : Reg) (cc : CC) (s : State) : Outcome :=
  ((needCop1 s).bind fun _ => (needXxForCc s cc).bind fun _ => s.floatCompare .single .single 2 ft fs cc).finish s

/-- C.UEQ.S (R440). -/
def execCUeqS (ft fs : Reg) (cc : CC) (s : State) : Outcome :=
  ((needCop1 s).bind fun _ => (needXxForCc s cc).bind fun _ => s.floatCompare .single .single 3 ft fs cc).finish s

/-- C.OLT.S (R440). -/
def execCOltS (ft fs : Reg) (cc : CC) (s : State) : Outcome :=
  ((needCop1 s).bind fun _ => (needXxForCc s cc).bind fun _ => s.floatCompare .single .single 4 ft fs cc).finish s

/-- C.ULT.S (R440). -/
def execCUltS (ft fs : Reg) (cc : CC) (s : State) : Outcome :=
  ((needCop1 s).bind fun _ => (needXxForCc s cc).bind fun _ => s.floatCompare .single .single 5 ft fs cc).finish s

/-- C.OLE.S (R440). -/
def execCOleS (ft fs : Reg) (cc : CC) (s : State) : Outcome :=
  ((needCop1 s).bind fun _ => (needXxForCc s cc).bind fun _ => s.floatCompare .single .single 6 ft fs cc).finish s

/-- C.ULE.S (R440). -/
def execCUleS (ft fs : Reg) (cc : CC) (s : State) : Outcome :=
  ((needCop1 s).bind fun _ => (needXxForCc s cc).bind fun _ => s.floatCompare .single .single 7 ft fs cc).finish s

/-- C.SF.S (R440). -/
def execCSfS (ft fs : Reg) (cc : CC) (s : State) : Outcome :=
  ((needCop1 s).bind fun _ => (needXxForCc s cc).bind fun _ => s.floatCompare .single .single 8 ft fs cc).finish s

/-- C.NGLE.S (R440). -/
def execCNgleS (ft fs : Reg) (cc : CC) (s : State) : Outcome :=
  ((needCop1 s).bind fun _ => (needXxForCc s cc).bind fun _ => s.floatCompare .single .single 9 ft fs cc).finish s

/-- C.SEQ.S (R440). -/
def execCSeqS (ft fs : Reg) (cc : CC) (s : State) : Outcome :=
  ((needCop1 s).bind fun _ => (needXxForCc s cc).bind fun _ => s.floatCompare .single .single 10 ft fs cc).finish s

/-- C.NGL.S (R440). -/
def execCNglS (ft fs : Reg) (cc : CC) (s : State) : Outcome :=
  ((needCop1 s).bind fun _ => (needXxForCc s cc).bind fun _ => s.floatCompare .single .single 11 ft fs cc).finish s

/-- C.LT.S (R440). -/
def execCLtS (ft fs : Reg) (cc : CC) (s : State) : Outcome :=
  ((needCop1 s).bind fun _ => (needXxForCc s cc).bind fun _ => s.floatCompare .single .single 12 ft fs cc).finish s

/-- C.NGE.S (R440). -/
def execCNgeS (ft fs : Reg) (cc : CC) (s : State) : Outcome :=
  ((needCop1 s).bind fun _ => (needXxForCc s cc).bind fun _ => s.floatCompare .single .single 13 ft fs cc).finish s

/-- C.LE.S (R440). -/
def execCLeS (ft fs : Reg) (cc : CC) (s : State) : Outcome :=
  ((needCop1 s).bind fun _ => (needXxForCc s cc).bind fun _ => s.floatCompare .single .single 14 ft fs cc).finish s

/-- C.NGT.S (R440). -/
def execCNgtS (ft fs : Reg) (cc : CC) (s : State) : Outcome :=
  ((needCop1 s).bind fun _ => (needXxForCc s cc).bind fun _ => s.floatCompare .single .single 15 ft fs cc).finish s

/-- C.F.D (R440). -/
def execCFD (ft fs : Reg) (cc : CC) (s : State) : Outcome :=
  ((needCop1 s).bind fun _ => (needXxForCc s cc).bind fun _ => s.floatCompare .double .double 0 ft fs cc).finish s

/-- C.UN.D (R440). -/
def execCUnD (ft fs : Reg) (cc : CC) (s : State) : Outcome :=
  ((needCop1 s).bind fun _ => (needXxForCc s cc).bind fun _ => s.floatCompare .double .double 1 ft fs cc).finish s

/-- C.EQ.D (R440). -/
def execCEqD (ft fs : Reg) (cc : CC) (s : State) : Outcome :=
  ((needCop1 s).bind fun _ => (needXxForCc s cc).bind fun _ => s.floatCompare .double .double 2 ft fs cc).finish s

/-- C.UEQ.D (R440). -/
def execCUeqD (ft fs : Reg) (cc : CC) (s : State) : Outcome :=
  ((needCop1 s).bind fun _ => (needXxForCc s cc).bind fun _ => s.floatCompare .double .double 3 ft fs cc).finish s

/-- C.OLT.D (R440). -/
def execCOltD (ft fs : Reg) (cc : CC) (s : State) : Outcome :=
  ((needCop1 s).bind fun _ => (needXxForCc s cc).bind fun _ => s.floatCompare .double .double 4 ft fs cc).finish s

/-- C.ULT.D (R440). -/
def execCUltD (ft fs : Reg) (cc : CC) (s : State) : Outcome :=
  ((needCop1 s).bind fun _ => (needXxForCc s cc).bind fun _ => s.floatCompare .double .double 5 ft fs cc).finish s

/-- C.OLE.D (R440). -/
def execCOleD (ft fs : Reg) (cc : CC) (s : State) : Outcome :=
  ((needCop1 s).bind fun _ => (needXxForCc s cc).bind fun _ => s.floatCompare .double .double 6 ft fs cc).finish s

/-- C.ULE.D (R440). -/
def execCUleD (ft fs : Reg) (cc : CC) (s : State) : Outcome :=
  ((needCop1 s).bind fun _ => (needXxForCc s cc).bind fun _ => s.floatCompare .double .double 7 ft fs cc).finish s

/-- C.SF.D (R440). -/
def execCSfD (ft fs : Reg) (cc : CC) (s : State) : Outcome :=
  ((needCop1 s).bind fun _ => (needXxForCc s cc).bind fun _ => s.floatCompare .double .double 8 ft fs cc).finish s

/-- C.NGLE.D (R440). -/
def execCNgleD (ft fs : Reg) (cc : CC) (s : State) : Outcome :=
  ((needCop1 s).bind fun _ => (needXxForCc s cc).bind fun _ => s.floatCompare .double .double 9 ft fs cc).finish s

/-- C.SEQ.D (R440). -/
def execCSeqD (ft fs : Reg) (cc : CC) (s : State) : Outcome :=
  ((needCop1 s).bind fun _ => (needXxForCc s cc).bind fun _ => s.floatCompare .double .double 10 ft fs cc).finish s

/-- C.NGL.D (R440). -/
def execCNglD (ft fs : Reg) (cc : CC) (s : State) : Outcome :=
  ((needCop1 s).bind fun _ => (needXxForCc s cc).bind fun _ => s.floatCompare .double .double 11 ft fs cc).finish s

/-- C.LT.D (R440). -/
def execCLtD (ft fs : Reg) (cc : CC) (s : State) : Outcome :=
  ((needCop1 s).bind fun _ => (needXxForCc s cc).bind fun _ => s.floatCompare .double .double 12 ft fs cc).finish s

/-- C.NGE.D (R440). -/
def execCNgeD (ft fs : Reg) (cc : CC) (s : State) : Outcome :=
  ((needCop1 s).bind fun _ => (needXxForCc s cc).bind fun _ => s.floatCompare .double .double 13 ft fs cc).finish s

/-- C.LE.D (R440). -/
def execCLeD (ft fs : Reg) (cc : CC) (s : State) : Outcome :=
  ((needCop1 s).bind fun _ => (needXxForCc s cc).bind fun _ => s.floatCompare .double .double 14 ft fs cc).finish s

/-- C.NGT.D (R440). -/
def execCNgtD (ft fs : Reg) (cc : CC) (s : State) : Outcome :=
  ((needCop1 s).bind fun _ => (needXxForCc s cc).bind fun _ => s.floatCompare .double .double 15 ft fs cc).finish s

end Sys2Proof.Machine
end

