-- ==== Sys2Proof/Machine/LoadStore.lean ====
section
/-! DEFINITION. Integer loads and stores, LL and SC, SYNC and PREF (42_loadstore.md). -/

namespace Sys2Proof.Machine

/-- The end of a whole load from a translated address: access, then the destination (R301, R140). -/
def State.loadFrom (s : State) (a : Word × Translation) (n : Nat) (extend : Word → Word) (rt : Reg) : State :=
  let r := s.loadInt a.1 a.2 n
  (r.2.setReg rt (extend r.1)).advance

/-- A whole load: address, access, then the destination (R301, R140). -/
def State.load (s : State) (n : Nat) (extend : Word → Word) (rt base : Reg) (off : Word) : Access State :=
  (s.dataAddress .load n base off).bind fun a => .ok (s.loadFrom a n extend rt)

/-- A whole store: address, then the n low bytes of the register (R301, R141). -/
def State.store (s : State) (n : Nat) (rt base : Reg) (off : Word) : Access State :=
  (s.dataAddress .store n base off).bind fun a => .ok (s.storeInt a.1 a.2 n (s.reg rt)).advance

/-- A partial load: no alignment check; the loaded bytes are merged into the register (R305). -/
def State.loadPart (s : State) (span : Bool → Nat → Word → Span) (size : Nat) (merge : Nat → Word → Word → Word)
    (rt base : Reg) (off : Word) : Access State :=
  (s.dataAddress .load 1 base off).bind fun a =>
    let p := span s.bigEndian size a.1
    let r := s.loadInt (p.first a.1) (p.translation a.2) p.count
    .ok (r.2.setReg rt (merge p.count r.1 (s.reg rt))).advance

/-- A partial store: no alignment check; exactly the bytes of the span are written (R305). -/
def State.storePart (s : State) (span : Bool → Nat → Word → Span) (size : Nat) (part : Nat → Word → Word)
    (rt base : Reg) (off : Word) : Access State :=
  (s.dataAddress .store 1 base off).bind fun a =>
    let p := span s.bigEndian size a.1
    .ok (s.storeInt (p.first a.1) (p.translation a.2) p.count (part p.count (s.reg rt))).advance

/-- The register after LWL: a sign-extended word whose upper bytes are loaded (R306). -/
def mergeLwl (count : Nat) (loaded old : Word) : Word := sext32 (lowWord (mergeLeft 4 count loaded old))

/-- The register after LWR: a sign-extended word when all four bytes were read, else the upper half is unchanged or the sign
extension, a free choice (R307, U22, log 19). -/
def mergeLwr (signExtended : Bool) (count : Nat) (loaded old : Word) : Word :=
  let t := lowWord (mergeRight count loaded old)
  if count = 4 then sext32 t else if signExtended then sext32 t else highWord old ++ t

/-- The upper `count` bytes of the low word, as SWL stores them (R308). -/
def partSwl (count : Nat) (v : Word) : Word := (lowWord v).setWidth 64 >>> (8 * (4 - count))

/-- The upper `count` bytes of a doubleword, as SDL stores them (R312). -/
def partSdl (count : Nat) (v : Word) : Word := v >>> (8 * (8 - count))

/-- The lower bytes, as SWR and SDR store them (R309, R313). -/
def partRight (_count : Nat) (v : Word) : Word := v

/-- What a load that links records of its access (R324, log 44). -/
def linkedAccess (a : Word × Translation) (n : Nat) : LinkedAccess :=
  ⟨canonicalVa a.1, a.2.pa, a.2.c, n⟩

/-- A load that links: LLbit is set when the load completes (R320, R321); an uncached address is refused (R324, D23). -/
def State.loadLinked (s : State) (n : Nat) (extend : Word → Word) (rt base : Reg) (off : Word) : Access State :=
  (s.dataAddress .load n base off).bind fun a =>
    if !a.2.cachable then .refuse .uncachedLink
    else .ok { s.loadFrom a n extend rt with llbit := true, linked := some (linkedAccess a n) }

/-- A conditional store: exceptions whatever LLbit holds; the store and 1 on success, 0 on failure; LLbit is kept; it may fail
at any time (R322, R324, D23). An uncached address, and an access other than the one last linked, is refused (R324, D23, U37;
log 44). -/
def State.storeConditional (s : State) (n : Nat) (rt base : Reg) (off : Word) : Access State :=
  (s.dataAddress .store n base off).bind fun a =>
    if !a.2.cachable then .refuse .uncachedLink
    else if s.linked ≠ some (linkedAccess a n) then .refuse .unmatchedConditional
    else if s.llbit && !Config.freeBool .scFail s.draws then
      .ok ((s.storeInt a.1 a.2 n (s.reg rt)).setReg rt 1).advance
    else .ok (s.setReg rt 0).advance

/-- A prefetch: the region comparison of AddrCalc; an address that passes it but is illegal is refused (R157, D29, U36, log 45);
otherwise nothing but the PC, whatever the translation would say. -/
def State.prefetch (s : State) (base : Reg) (off : Word) : Access State :=
  (s.addrCalc .load base off).bind fun a =>
    if legalAddress a.1 s.user then .ok s.advance else .refuse .prefetchAddress

/-- The sign extension of the n low bytes of a loaded value. -/
def signBytes (n : Nat) (v : Word) : Word := (v.setWidth (8 * n)).signExtend 64

/-- LB (R290). -/
def execLb (base rt : Reg) (offset : BitVec 16) (s : State) : Outcome :=
  (s.load 1 (signBytes 1) rt base (sext16 offset)).finish s

/-- LBU (R291). -/
def execLbu (base rt : Reg) (offset : BitVec 16) (s : State) : Outcome :=
  (s.load 1 id rt base (sext16 offset)).finish s

/-- LH (R292). -/
def execLh (base rt : Reg) (offset : BitVec 16) (s : State) : Outcome :=
  (s.load 2 (signBytes 2) rt base (sext16 offset)).finish s

/-- LHU (R293). -/
def execLhu (base rt : Reg) (offset : BitVec 16) (s : State) : Outcome :=
  (s.load 2 id rt base (sext16 offset)).finish s

/-- LW (R294). -/
def execLw (base rt : Reg) (offset : BitVec 16) (s : State) : Outcome :=
  (s.load 4 (signBytes 4) rt base (sext16 offset)).finish s

/-- LWU (R295). -/
def execLwu (base rt : Reg) (offset : BitVec 16) (s : State) : Outcome :=
  ((needUx s).bind fun _ => s.load 4 id rt base (sext16 offset)).finish s

/-- LD (R296). -/
def execLd (base rt : Reg) (offset : BitVec 16) (s : State) : Outcome :=
  ((needUx s).bind fun _ => s.load 8 id rt base (sext16 offset)).finish s

/-- SB (R297). -/
def execSb (base rt : Reg) (offset : BitVec 16) (s : State) : Outcome :=
  (s.store 1 rt base (sext16 offset)).finish s

/-- SH (R298). -/
def execSh (base rt : Reg) (offset : BitVec 16) (s : State) : Outcome :=
  (s.store 2 rt base (sext16 offset)).finish s

/-- SW (R299). -/
def execSw (base rt : Reg) (offset : BitVec 16) (s : State) : Outcome :=
  (s.store 4 rt base (sext16 offset)).finish s

/-- SD (R300). -/
def execSd (base rt : Reg) (offset : BitVec 16) (s : State) : Outcome :=
  ((needUx s).bind fun _ => s.store 8 rt base (sext16 offset)).finish s

/-- LWL (R306). -/
def execLwl (base rt : Reg) (offset : BitVec 16) (s : State) : Outcome :=
  (s.loadPart leftSpan 4 mergeLwl rt base (sext16 offset)).finish s

/-- LWR (R307). -/
def execLwr (base rt : Reg) (offset : BitVec 16) (s : State) : Outcome :=
  (s.loadPart rightSpan 4 (mergeLwr (Config.freeBool .lwrUpper s.draws)) rt base (sext16 offset)).finish s

/-- LDL (R310). -/
def execLdl (base rt : Reg) (offset : BitVec 16) (s : State) : Outcome :=
  ((needUx s).bind fun _ => s.loadPart leftSpan 8 (mergeLeft 8) rt base (sext16 offset)).finish s

/-- LDR (R311). -/
def execLdr (base rt : Reg) (offset : BitVec 16) (s : State) : Outcome :=
  ((needUx s).bind fun _ => s.loadPart rightSpan 8 mergeRight rt base (sext16 offset)).finish s

/-- SWL (R308). -/
def execSwl (base rt : Reg) (offset : BitVec 16) (s : State) : Outcome :=
  (s.storePart leftSpan 4 partSwl rt base (sext16 offset)).finish s

/-- SWR (R309). -/
def execSwr (base rt : Reg) (offset : BitVec 16) (s : State) : Outcome :=
  (s.storePart rightSpan 4 partRight rt base (sext16 offset)).finish s

/-- SDL (R312). -/
def execSdl (base rt : Reg) (offset : BitVec 16) (s : State) : Outcome :=
  ((needUx s).bind fun _ => s.storePart leftSpan 8 partSdl rt base (sext16 offset)).finish s

/-- SDR (R313). -/
def execSdr (base rt : Reg) (offset : BitVec 16) (s : State) : Outcome :=
  ((needUx s).bind fun _ => s.storePart rightSpan 8 partRight rt base (sext16 offset)).finish s

/-- LL (R320). -/
def execLl (base rt : Reg) (offset : BitVec 16) (s : State) : Outcome :=
  (s.loadLinked 4 (signBytes 4) rt base (sext16 offset)).finish s

/-- LLD (R321). -/
def execLld (base rt : Reg) (offset : BitVec 16) (s : State) : Outcome :=
  ((needUx s).bind fun _ => s.loadLinked 8 id rt base (sext16 offset)).finish s

/-- SC (R322). -/
def execSc (base rt : Reg) (offset : BitVec 16) (s : State) : Outcome :=
  (s.storeConditional 4 rt base (sext16 offset)).finish s

/-- SCD (R323). -/
def execScd (base rt : Reg) (offset : BitVec 16) (s : State) : Outcome :=
  ((needUx s).bind fun _ => s.storeConditional 8 rt base (sext16 offset)).finish s

/-- SYNC: one processor sees its accesses in program order already (R326, R164, log 50); stype is ignored. -/
def execSync (_stype : BitVec 5) (s : State) : Outcome :=
  (Access.ok s.advance).finish s

/-- PREF (R330); the hint is ignored (R331). -/
def execPref (base : Reg) (_hint : BitVec 5) (offset : BitVec 16) (s : State) : Outcome :=
  ((needXx s).bind fun _ => s.prefetch base (sext16 offset)).finish s

end Sys2Proof.Machine
end

