-- ==== Sys2Proof/Machine/FpMove.lean ====
section
/-! DEFINITION. Floating-point loads, stores, moves, branches and conditional moves (46_fp_mem_move.md). -/

namespace Sys2Proof.Machine

/-- A load of 32 bits (R460, R464). -/
def State.loadFprWord (s : State) (ft base : Reg) (off : Word) : Access State :=
  (s.dataAddress .load 4 base off).bind fun a =>
    let r := s.loadFloat a.1 a.2 4
    .ok (r.2.moveFprWord ft (lowWord r.1)).advance

/-- A load of 64 bits (R461, R464). -/
def State.loadFpr (s : State) (ft base : Reg) (off : Word) : Access State :=
  (needFprPair s ft).bind fun _ => (s.dataAddress .load 8 base off).bind fun a =>
    let r := s.loadFloat a.1 a.2 8
    .ok (r.2.moveFpr ft r.1).advance

/-- A store of 32 bits (R462, R464). -/
def State.storeFprWord (s : State) (ft base : Reg) (off : Word) : Access State :=
  (s.dataAddress .store 4 base off).bind fun a =>
    .ok (s.storeFloat a.1 a.2 4 ((s.fprWord ft).setWidth 64)).advance

/-- A store of 64 bits (R463, R464). -/
def State.storeFpr (s : State) (ft base : Reg) (off : Word) : Access State :=
  (needFprPair s ft).bind fun _ => (s.dataAddress .store 8 base off).bind fun a =>
    .ok (s.storeFloat a.1 a.2 8 (s.fprFile ft)).advance

/-- A move of a single: plain bits, the upper half unspecified (R494). -/
def State.moveSingle (s : State) (fd fs : Reg) : Access State := .ok (s.moveFprWord fd (s.fprWord fs)).advance

/-- A move of a double (R494). -/
def State.moveDouble (s : State) (fd fs : Reg) : Access State :=
  (needFprPairs s [fd, fs]).bind fun _ => .ok (s.moveFpr fd (s.fprFile fs)).advance

/-- A conditional move of a single: when the condition is false nothing changes (R495). -/
def State.moveSingleIf (s : State) (c : Bool) (fd fs : Reg) : Access State :=
  if c then s.moveSingle fd fs else .ok s.advance

/-- A conditional move of a double (R495). -/
def State.moveDoubleIf (s : State) (c : Bool) (fd fs : Reg) : Access State :=
  (needFprPairs s [fd, fs]).bind fun _ => if c then s.moveDouble fd fs else .ok s.advance

/-- The value a read of a floating-point control register gives (R484, R52). -/
def State.readFcr (s : State) (n : Reg) : BitVec 32 :=
  if n = 31 then s.fsr.image
  else if n = 0 then fConfigImage Config.fconfigImp Config.fconfigRev
  else (Config.freeWord .reservedFcr s.draws).setWidth 32

/-- The FSR after a CTC1: all fields take the written bits, and a written Cause bit sets its flag (R485). -/
def Fsr.written (w : BitVec 32) : Fsr :=
  let f := Fsr.ofWord w
  { f with flags := f.flags ||| f.cause }

/-- CTC1 to the FSR (R485): a written Cause bit that is enabled, or E, raises the floating-point interrupt, precise in precise
mode. A condition code that changed is busy for one instruction (R670). -/
def State.writeFsr (s : State) (w : BitVec 32) : Access State :=
  let f := Fsr.written w
  let t := { s with fsr := f }
  .ok (if s.statusView.dm && f.traps f.cause f.e then takeException .floatingPoint t
    else { t.advance with fccBusy := s.fsr.fcc ^^^ f.fcc })

/-- The state after the FPU is drained: the CPU sees the floating-point interrupt condition of every earlier instruction
(R54, R484, log 29). -/
def State.drain (s : State) : State := { s with fpiSeen := s.fsr.fpi }

/-- LWC1 (R460). -/
def execLwc1 (base ft : Reg) (offset : BitVec 16) (s : State) : Outcome :=
  ((needCop1 s).bind fun _ => s.loadFprWord ft base (sext16 offset)).finish s

/-- LDC1 (R461). -/
def execLdc1 (base ft : Reg) (offset : BitVec 16) (s : State) : Outcome :=
  ((needCop1 s).bind fun _ => s.loadFpr ft base (sext16 offset)).finish s

/-- SWC1 (R462). -/
def execSwc1 (base ft : Reg) (offset : BitVec 16) (s : State) : Outcome :=
  ((needCop1 s).bind fun _ => s.storeFprWord ft base (sext16 offset)).finish s

/-- SDC1 (R463). -/
def execSdc1 (base ft : Reg) (offset : BitVec 16) (s : State) : Outcome :=
  ((needCop1 s).bind fun _ => s.storeFpr ft base (sext16 offset)).finish s

/-- LWXC1 (R470). -/
def execLwxc1 (base index fd : Reg) (s : State) : Outcome :=
  ((needCop1 s).bind fun _ => (needXx s).bind fun _ => s.loadFprWord fd base (s.reg index)).finish s

/-- LDXC1 (R471). -/
def execLdxc1 (base index fd : Reg) (s : State) : Outcome :=
  ((needCop1 s).bind fun _ => (needXx s).bind fun _ => s.loadFpr fd base (s.reg index)).finish s

/-- SWXC1 (R472). -/
def execSwxc1 (base index fs : Reg) (s : State) : Outcome :=
  ((needCop1 s).bind fun _ => (needXx s).bind fun _ => s.storeFprWord fs base (s.reg index)).finish s

/-- SDXC1 (R473). -/
def execSdxc1 (base index fs : Reg) (s : State) : Outcome :=
  ((needCop1 s).bind fun _ => (needXx s).bind fun _ => s.storeFpr fs base (s.reg index)).finish s

/-- PFETCH (R474); the hint is ignored (R331). -/
def execPfetch (base index : Reg) (_hint : BitVec 5) (s : State) : Outcome :=
  ((needCop1 s).bind fun _ => (needXx s).bind fun _ => s.prefetch base (s.reg index)).finish s

/-- MFC1 (R480). -/
def execMfc1 (rt fs : Reg) (s : State) : Outcome :=
  ((needCop1 s).bind fun _ => s.writeReg rt (sext32 (s.fprWord fs))).finish s

/-- DMFC1 (R481). -/
def execDmfc1 (rt fs : Reg) (s : State) : Outcome :=
  ((needCop1 s).bind fun _ => (needUx s).bind fun _ => (needFprPair s fs).bind fun _ => s.writeReg rt (s.fprFile fs)).finish s

/-- CFC1 (R484); a read of the FSR drains the FPU. -/
def execCfc1 (rt fs : Reg) (s : State) : Outcome :=
  ((needCop1 s).bind fun _ => (if fs = 31 then s.drain else s).writeReg rt (sext32 (s.readFcr fs))).finish s

/-- MTC1 (R482). -/
def execMtc1 (rt fs : Reg) (s : State) : Outcome :=
  ((needCop1 s).bind fun _ => .ok (s.moveFprWord fs (lowWord (s.reg rt))).advance).finish s

/-- DMTC1 (R483). -/
def execDmtc1 (rt fs : Reg) (s : State) : Outcome :=
  ((needCop1 s).bind fun _ => (needUx s).bind fun _ => (needFprPair s fs).bind fun _ => .ok (s.moveFpr fs (s.reg rt)).advance).finish s

/-- CTC1 (R485); a write to a register other than the FSR has no effect (D6). -/
def execCtc1 (rt fs : Reg) (s : State) : Outcome :=
  ((needCop1 s).bind fun _ => if fs = 31 then s.writeFsr (lowWord (s.reg rt)) else .ok s.advance).finish s

/-- BC1F (R490). -/
def execBc1f (cc : CC) (offset : BitVec 16) (s : State) : Outcome :=
  ((needCop1 s).bind fun _ => (needXxForCc s cc).bind fun _ => (needNotInSlot s).bind fun _ => s.branchIf (!s.testCc cc) (branchTarget s.pc offset)).finish s

/-- BC1T (R491). -/
def execBc1t (cc : CC) (offset : BitVec 16) (s : State) : Outcome :=
  ((needCop1 s).bind fun _ => (needXxForCc s cc).bind fun _ => (needNotInSlot s).bind fun _ => s.branchIf (s.testCc cc) (branchTarget s.pc offset)).finish s

/-- BC1FL (R492). -/
def execBc1fl (cc : CC) (offset : BitVec 16) (s : State) : Outcome :=
  ((needCop1 s).bind fun _ => (needXxForCc s cc).bind fun _ => (needNotInSlot s).bind fun _ => s.branchLikelyIf (!s.testCc cc) (branchTarget s.pc offset)).finish s

/-- BC1TL (R493). -/
def execBc1tl (cc : CC) (offset : BitVec 16) (s : State) : Outcome :=
  ((needCop1 s).bind fun _ => (needXxForCc s cc).bind fun _ => (needNotInSlot s).bind fun _ => s.branchLikelyIf (s.testCc cc) (branchTarget s.pc offset)).finish s

/-- MOV.S (R494). -/
def execMovS (fs fd : Reg) (s : State) : Outcome :=
  ((needCop1 s).bind fun _ => s.moveSingle fd fs).finish s

/-- MOVF.S (R496); the FPU sees the new condition code at once (R495). -/
def execMovfS (cc : CC) (fs fd : Reg) (s : State) : Outcome :=
  ((needCop1 s).bind fun _ => (needXx s).bind fun _ => s.moveSingleIf (!s.fsr.cc cc) fd fs).finish s

/-- MOVT.S (R497); the FPU sees the new condition code at once (R495). -/
def execMovtS (cc : CC) (fs fd : Reg) (s : State) : Outcome :=
  ((needCop1 s).bind fun _ => (needXx s).bind fun _ => s.moveSingleIf (s.fsr.cc cc) fd fs).finish s

/-- MOVZ.S (R498). -/
def execMovzS (rt fs fd : Reg) (s : State) : Outcome :=
  ((needCop1 s).bind fun _ => (needXx s).bind fun _ => s.moveSingleIf (s.reg rt == 0) fd fs).finish s

/-- MOVN.S (R499). -/
def execMovnS (rt fs fd : Reg) (s : State) : Outcome :=
  ((needCop1 s).bind fun _ => (needXx s).bind fun _ => s.moveSingleIf (s.reg rt != 0) fd fs).finish s

/-- MOV.D (R494). -/
def execMovD (fs fd : Reg) (s : State) : Outcome :=
  ((needCop1 s).bind fun _ => s.moveDouble fd fs).finish s

/-- MOVF.D (R496); the FPU sees the new condition code at once (R495). -/
def execMovfD (cc : CC) (fs fd : Reg) (s : State) : Outcome :=
  ((needCop1 s).bind fun _ => (needXx s).bind fun _ => s.moveDoubleIf (!s.fsr.cc cc) fd fs).finish s

/-- MOVT.D (R497); the FPU sees the new condition code at once (R495). -/
def execMovtD (cc : CC) (fs fd : Reg) (s : State) : Outcome :=
  ((needCop1 s).bind fun _ => (needXx s).bind fun _ => s.moveDoubleIf (s.fsr.cc cc) fd fs).finish s

/-- MOVZ.D (R498). -/
def execMovzD (rt fs fd : Reg) (s : State) : Outcome :=
  ((needCop1 s).bind fun _ => (needXx s).bind fun _ => s.moveDoubleIf (s.reg rt == 0) fd fs).finish s

/-- MOVN.D (R499). -/
def execMovnD (rt fs fd : Reg) (s : State) : Outcome :=
  ((needCop1 s).bind fun _ => (needXx s).bind fun _ => s.moveDoubleIf (s.reg rt != 0) fd fs).finish s

end Sys2Proof.Machine
end

