-- ==== Sys2Proof/Machine/IntAlu.lean ====
section
/-! DEFINITION. Integer arithmetic, logical, shift and conditional-move instructions (40_int_alu.md). -/

namespace Sys2Proof.Machine

/-- Completion of a word operation that traps on overflow (R200, R220, R222). -/
def State.writeWordOrTrap (s : State) (rd : Reg) (a b : Word) (t : BitVec 33) : Access State :=
  if notWordValue a || notWordValue b then s.writeReg rd (Config.freeWord .wordOperand s.draws)
  else if overflow32 t then .raise .overflow
  else s.writeReg rd (sext32 (t.setWidth 32))

/-- Completion of a doubleword operation that traps on overflow (R204, R222). -/
def State.writeDoubleOrTrap (s : State) (rd : Reg) (t : BitVec 65) : Access State :=
  if overflow64 t then .raise .overflow else s.writeReg rd (t.setWidth 64)

/-- Completion of a conditional move: the destination keeps its value when the move is not performed (R259). -/
def State.moveIf (s : State) (c : Bool) (rd rs : Reg) : Access State :=
  .ok (if c then (s.setReg rd (s.reg rs)).advance else s.advance)

/-- ADD (R200). -/
def execAdd (rs rt rd : Reg) (s : State) : Outcome :=
  (s.writeWordOrTrap rd (s.reg rs) (s.reg rt) (addWide32 (lowWord (s.reg rs)) (lowWord (s.reg rt)))).finish s

/-- ADDU (R202). -/
def execAddu (rs rt rd : Reg) (s : State) : Outcome :=
  (s.writeReg rd (s.wordResult (s.reg rs) (s.reg rt) (lowWord (s.reg rs) + lowWord (s.reg rt)))).finish s

/-- SUB (R207). -/
def execSub (rs rt rd : Reg) (s : State) : Outcome :=
  (s.writeWordOrTrap rd (s.reg rs) (s.reg rt) (subWide32 (lowWord (s.reg rs)) (lowWord (s.reg rt)))).finish s

/-- SUBU (R208). -/
def execSubu (rs rt rd : Reg) (s : State) : Outcome :=
  (s.writeReg rd (s.wordResult (s.reg rs) (s.reg rt) (lowWord (s.reg rs) - lowWord (s.reg rt)))).finish s

/-- DADD (R204). -/
def execDadd (rs rt rd : Reg) (s : State) : Outcome :=
  ((needUx s).bind fun _ => s.writeDoubleOrTrap rd (addWide64 (s.reg rs) (s.reg rt))).finish s

/-- DADDU (R209). -/
def execDaddu (rs rt rd : Reg) (s : State) : Outcome :=
  ((needUx s).bind fun _ => s.writeReg rd (s.reg rs + s.reg rt)).finish s

/-- DSUB (R210). -/
def execDsub (rs rt rd : Reg) (s : State) : Outcome :=
  ((needUx s).bind fun _ => s.writeDoubleOrTrap rd (subWide64 (s.reg rs) (s.reg rt))).finish s

/-- DSUBU (R211). -/
def execDsubu (rs rt rd : Reg) (s : State) : Outcome :=
  ((needUx s).bind fun _ => s.writeReg rd (s.reg rs - s.reg rt)).finish s

/-- AND (R212). -/
def execAnd (rs rt rd : Reg) (s : State) : Outcome :=
  (s.writeReg rd (s.reg rs &&& s.reg rt)).finish s

/-- OR (R213). -/
def execOr (rs rt rd : Reg) (s : State) : Outcome :=
  (s.writeReg rd (s.reg rs ||| s.reg rt)).finish s

/-- XOR (R214). -/
def execXor (rs rt rd : Reg) (s : State) : Outcome :=
  (s.writeReg rd (s.reg rs ^^^ s.reg rt)).finish s

/-- NOR (R215). -/
def execNor (rs rt rd : Reg) (s : State) : Outcome :=
  (s.writeReg rd (~~~(s.reg rs ||| s.reg rt))).finish s

/-- SLT (R223). -/
def execSlt (rs rt rd : Reg) (s : State) : Outcome :=
  (s.writeReg rd (boolWord ((s.reg rs).slt (s.reg rt)))).finish s

/-- SLTU (R224). -/
def execSltu (rs rt rd : Reg) (s : State) : Outcome :=
  (s.writeReg rd (boolWord ((s.reg rs).ult (s.reg rt)))).finish s

/-- ADDI (R201). -/
def execAddi (rs rt : Reg) (imm : BitVec 16) (s : State) : Outcome :=
  (s.writeWordOrTrap rt (s.reg rs) (sext16 imm) (addWide32 (lowWord (s.reg rs)) (lowWord (sext16 imm)))).finish s

/-- ADDIU (R203). -/
def execAddiu (rs rt : Reg) (imm : BitVec 16) (s : State) : Outcome :=
  (s.writeReg rt (s.wordResult (s.reg rs) (sext16 imm) (lowWord (s.reg rs) + lowWord (sext16 imm)))).finish s

/-- DADDI (R205). -/
def execDaddi (rs rt : Reg) (imm : BitVec 16) (s : State) : Outcome :=
  ((needUx s).bind fun _ => s.writeDoubleOrTrap rt (addWide64 (s.reg rs) (sext16 imm))).finish s

/-- DADDIU (R206). -/
def execDaddiu (rs rt : Reg) (imm : BitVec 16) (s : State) : Outcome :=
  ((needUx s).bind fun _ => s.writeReg rt (s.reg rs + sext16 imm)).finish s

/-- SLTI (R225). -/
def execSlti (rs rt : Reg) (imm : BitVec 16) (s : State) : Outcome :=
  (s.writeReg rt (boolWord ((s.reg rs).slt (sext16 imm)))).finish s

/-- SLTIU (R226). -/
def execSltiu (rs rt : Reg) (imm : BitVec 16) (s : State) : Outcome :=
  (s.writeReg rt (boolWord ((s.reg rs).ult (sext16 imm)))).finish s

/-- ANDI (R216). -/
def execAndi (rs rt : Reg) (imm : BitVec 16) (s : State) : Outcome :=
  (s.writeReg rt (s.reg rs &&& zext16 imm)).finish s

/-- ORI (R217). -/
def execOri (rs rt : Reg) (imm : BitVec 16) (s : State) : Outcome :=
  (s.writeReg rt (s.reg rs ||| zext16 imm)).finish s

/-- XORI (R218). -/
def execXori (rs rt : Reg) (imm : BitVec 16) (s : State) : Outcome :=
  (s.writeReg rt (s.reg rs ^^^ zext16 imm)).finish s

/-- LUI (R219). -/
def execLui (rt : Reg) (imm : BitVec 16) (s : State) : Outcome :=
  (s.writeReg rt (sext32 (imm ++ 0#16))).finish s

/-- SLL: any input is accepted (R230). -/
def execSll (rt rd : Reg) (sa : BitVec 5) (s : State) : Outcome :=
  (s.writeReg rd (sext32 (lowWord (s.reg rt) <<< sa.toNat))).finish s

/-- SRL (R231). -/
def execSrl (rt rd : Reg) (sa : BitVec 5) (s : State) : Outcome :=
  (s.writeReg rd (s.wordResult (s.reg rt) (s.reg rt) (lowWord (s.reg rt) >>> sa.toNat))).finish s

/-- SRA (R232). -/
def execSra (rt rd : Reg) (sa : BitVec 5) (s : State) : Outcome :=
  (s.writeReg rd (s.wordResult (s.reg rt) (s.reg rt) ((lowWord (s.reg rt)).sshiftRight sa.toNat))).finish s

/-- DSLL (R236). -/
def execDsll (rt rd : Reg) (sa : BitVec 5) (s : State) : Outcome :=
  ((needUx s).bind fun _ => s.writeReg rd (s.reg rt <<< sa.toNat)).finish s

/-- DSRL (R237). -/
def execDsrl (rt rd : Reg) (sa : BitVec 5) (s : State) : Outcome :=
  ((needUx s).bind fun _ => s.writeReg rd (s.reg rt >>> sa.toNat)).finish s

/-- DSRA (R238). -/
def execDsra (rt rd : Reg) (sa : BitVec 5) (s : State) : Outcome :=
  ((needUx s).bind fun _ => s.writeReg rd ((s.reg rt).sshiftRight sa.toNat)).finish s

/-- DSLL32 (R239). -/
def execDsll32 (rt rd : Reg) (sa : BitVec 5) (s : State) : Outcome :=
  ((needUx s).bind fun _ => s.writeReg rd (s.reg rt <<< (sa.toNat + 32))).finish s

/-- DSRL32 (R240). -/
def execDsrl32 (rt rd : Reg) (sa : BitVec 5) (s : State) : Outcome :=
  ((needUx s).bind fun _ => s.writeReg rd (s.reg rt >>> (sa.toNat + 32))).finish s

/-- DSRA32 (R241). -/
def execDsra32 (rt rd : Reg) (sa : BitVec 5) (s : State) : Outcome :=
  ((needUx s).bind fun _ => s.writeReg rd ((s.reg rt).sshiftRight (sa.toNat + 32))).finish s

/-- SLLV: any input is accepted (R233). -/
def execSllv (rs rt rd : Reg) (s : State) : Outcome :=
  (s.writeReg rd (sext32 (lowWord (s.reg rt) <<< ((s.reg rs).extractLsb' 0 5).toNat))).finish s

/-- SRLV (R234); both registers are tested (R220). -/
def execSrlv (rs rt rd : Reg) (s : State) : Outcome :=
  (s.writeReg rd (s.wordResult (s.reg rs) (s.reg rt) (lowWord (s.reg rt) >>> ((s.reg rs).extractLsb' 0 5).toNat))).finish s

/-- SRAV (R235); both registers are tested (R220). -/
def execSrav (rs rt rd : Reg) (s : State) : Outcome :=
  (s.writeReg rd (s.wordResult (s.reg rs) (s.reg rt) ((lowWord (s.reg rt)).sshiftRight ((s.reg rs).extractLsb' 0 5).toNat))).finish s

/-- DSLLV (R242). -/
def execDsllv (rs rt rd : Reg) (s : State) : Outcome :=
  ((needUx s).bind fun _ => s.writeReg rd (s.reg rt <<< ((s.reg rs).extractLsb' 0 6).toNat)).finish s

/-- DSRLV (R243). -/
def execDsrlv (rs rt rd : Reg) (s : State) : Outcome :=
  ((needUx s).bind fun _ => s.writeReg rd (s.reg rt >>> ((s.reg rs).extractLsb' 0 6).toNat)).finish s

/-- DSRAV (R244). -/
def execDsrav (rs rt rd : Reg) (s : State) : Outcome :=
  ((needUx s).bind fun _ => s.writeReg rd ((s.reg rt).sshiftRight ((s.reg rs).extractLsb' 0 6).toNat)).finish s

/-- MOVZ (R260). -/
def execMovz (rs rt rd : Reg) (s : State) : Outcome :=
  ((needXx s).bind fun _ => s.moveIf (s.reg rt == 0) rd rs).finish s

/-- MOVN (R261). -/
def execMovn (rs rt rd : Reg) (s : State) : Outcome :=
  ((needXx s).bind fun _ => s.moveIf (s.reg rt != 0) rd rs).finish s

/-- MOVF (R262). -/
def execMovf (rs : Reg) (cc : CC) (rd : Reg) (s : State) : Outcome :=
  ((needCop1 s).bind fun _ => (needXx s).bind fun _ => s.moveIf (!s.testCc cc) rd rs).finish s

/-- MOVT (R263). -/
def execMovt (rs : Reg) (cc : CC) (rd : Reg) (s : State) : Outcome :=
  ((needCop1 s).bind fun _ => (needXx s).bind fun _ => s.moveIf (s.testCc cc) rd rs).finish s

end Sys2Proof.Machine
end

