-- ==== Sys2Proof/Machine/MulDiv.lean ====
section
/-! DEFINITION. Integer multiply and divide, HI and LO (41_muldiv.md). -/

namespace Sys2Proof.Machine

/-- Completion of a multiply or divide: HI and LO written, and a result waiting to be read (R278, R279). -/
def State.writeHiLo (s : State) (hi lo : Word) : Access State :=
  .ok { s.advance with hi := hi, lo := lo, hiloBusy := true }

/-- The free results of a word operation on operands that are not sign-extended words, or of a divide corner
(R278, R272, U19, U20, log 16, 17). -/
def State.freeHiLo (s : State) : Access State :=
  s.writeHiLo (Config.freeWord .divideHi s.draws) (Config.freeWord .divideLo s.draws)

/-- Completion of a word multiply from its 64-bit product (R270, R271, R278). -/
def State.writeProduct32 (s : State) (a b : Word) (p : BitVec 64) : Access State :=
  if notWordValue a || notWordValue b then s.freeHiLo
  else s.writeHiLo (sext32 (highWord p)) (sext32 (lowWord p))

/-- Completion of a doubleword multiply from its 128-bit product (R274, R275). -/
def State.writeProduct64 (s : State) (p : BitVec 128) : Access State :=
  s.writeHiLo (p.extractLsb' 64 64) (p.extractLsb' 0 64)

/-- Completion of a word divide (R272, R273, R278). -/
def State.writeQuotient32 (s : State) (a b : Word) (corner : Bool) (q r : BitVec 32) : Access State :=
  if notWordValue a || notWordValue b || corner then s.freeHiLo else s.writeHiLo (sext32 r) (sext32 q)

/-- Completion of a doubleword divide (R276, R277). -/
def State.writeQuotient64 (s : State) (corner : Bool) (q r : Word) : Access State :=
  if corner then s.freeHiLo else s.writeHiLo r q

/-- MULT (R270). -/
def execMult (rs rt : Reg) (s : State) : Outcome :=
  (s.writeProduct32 (s.reg rs) (s.reg rt)
    ((lowWord (s.reg rs)).signExtend 64 * (lowWord (s.reg rt)).signExtend 64)).finish s

/-- MULTU (R271). -/
def execMultu (rs rt : Reg) (s : State) : Outcome :=
  (s.writeProduct32 (s.reg rs) (s.reg rt)
    ((lowWord (s.reg rs)).setWidth 64 * (lowWord (s.reg rt)).setWidth 64)).finish s

/-- DIV: truncated quotient, remainder with the sign of the dividend; free for divisor 0 and for the most negative word by -1 (R272). -/
def execDiv (rs rt : Reg) (s : State) : Outcome :=
  (s.writeQuotient32 (s.reg rs) (s.reg rt)
    (lowWord (s.reg rt) == 0 || lowWord (s.reg rs) == BitVec.intMin 32 && lowWord (s.reg rt) == BitVec.allOnes 32)
    ((lowWord (s.reg rs)).sdiv (lowWord (s.reg rt))) ((lowWord (s.reg rs)).srem (lowWord (s.reg rt)))).finish s

/-- DIVU (R273). -/
def execDivu (rs rt : Reg) (s : State) : Outcome :=
  (s.writeQuotient32 (s.reg rs) (s.reg rt) (lowWord (s.reg rt) == 0)
    (lowWord (s.reg rs) / lowWord (s.reg rt)) (lowWord (s.reg rs) % lowWord (s.reg rt))).finish s

/-- DMULT (R274). -/
def execDmult (rs rt : Reg) (s : State) : Outcome :=
  ((needUx s).bind fun _ => s.writeProduct64 ((s.reg rs).signExtend 128 * (s.reg rt).signExtend 128)).finish s

/-- DMULTU (R275). -/
def execDmultu (rs rt : Reg) (s : State) : Outcome :=
  ((needUx s).bind fun _ => s.writeProduct64 ((s.reg rs).setWidth 128 * (s.reg rt).setWidth 128)).finish s

/-- DDIV (R276). -/
def execDdiv (rs rt : Reg) (s : State) : Outcome :=
  ((needUx s).bind fun _ =>
    s.writeQuotient64 (s.reg rt == 0 || s.reg rs == BitVec.intMin 64 && s.reg rt == BitVec.allOnes 64)
      ((s.reg rs).sdiv (s.reg rt)) ((s.reg rs).srem (s.reg rt))).finish s

/-- DDIVU (R277). -/
def execDdivu (rs rt : Reg) (s : State) : Outcome :=
  ((needUx s).bind fun _ =>
    s.writeQuotient64 (s.reg rt == 0) (s.reg rs / s.reg rt) (s.reg rs % s.reg rt)).finish s

/-- MFHI (R280); reading ends the wait of R279 (b). -/
def execMfhi (rd : Reg) (s : State) : Outcome :=
  Host.Outcome.next { (s.setReg rd s.hi).advance with hiloBusy := false }

/-- MFLO (R282); reading ends the wait of R279 (b). -/
def execMflo (rd : Reg) (s : State) : Outcome :=
  Host.Outcome.next { (s.setReg rd s.lo).advance with hiloBusy := false }

/-- MTHI (R281); after a multiply or divide that nothing has read, LO becomes undefined: a free value (R279 (b), U21, log 18). -/
def execMthi (rs : Reg) (s : State) : Outcome :=
  Host.Outcome.next { s.advance with
    hi := s.reg rs
    lo := if s.hiloBusy then Config.freeWord .loAfterMthi s.draws else s.lo }

/-- MTLO (R283); after a multiply or divide that nothing has read, HI becomes undefined: a free value (R279 (b), U21, log 18). -/
def execMtlo (rs : Reg) (s : State) : Outcome :=
  Host.Outcome.next { s.advance with
    lo := s.reg rs
    hi := if s.hiloBusy then Config.freeWord .hiAfterMtlo s.draws else s.hi }

end Sys2Proof.Machine
end

