-- ==== Sys2Proof/Machine/SystemRegs.lean ====
section
/-! DEFINITION. Reading and writing the coprocessor-0 registers (R28 to R51, R520, R521). -/

namespace Sys2Proof.Machine

/-- The value DMFC0 reads: the register's image, or for a reserved number a free value (R520, D5, log 38). -/
def State.readCop0 (s : State) (rd : Reg) : Word :=
  let c := s.cp0
  match rd.toNat with
  | 0 => c.tlbSet.image
  | 2 => c.entryLo.image
  | 4 => c.uBase
  | 5 => placeField c.shiftAmt 0
  | 6 => c.trapBase.image
  | 7 => c.badPAddr.image
  | 8 => c.vAddr
  | 9 => placeField c.counts 0
  | 10 => c.entryHi.image
  | 12 => c.status.image
  | 13 => c.cause.image s.fpiSeen s.ip10
  | 14 => c.epc
  | 15 => Config.pridValue
  | 16 => c.config.image
  | 18 => c.work0
  | 19 => c.work1
  | 20 => c.pBase
  | 21 => c.gBase
  | 24 => wiredImage c.wired
  | 28 => c.dCache.image
  | 29 => placeField c.iasid Layout.iCacheIasid
  | _ => Config.freeWord .reservedCop0 s.draws

/-- The registers after a DMTC0; read-only registers, read-only fields and reserved numbers ignore the write (R521, D5, D6). -/
def Cop0.write (c : Cop0) (rd : Reg) (v : Word) : Cop0 :=
  match rd.toNat with
  | 0 => { c with tlbSet := TlbSetReg.ofWord v }
  | 2 => { c with entryLo := TlbLo.ofWord v }
  | 4 => { c with uBase := v }
  | 6 => { c with trapBase := TrapBaseReg.ofWord v }
  | 8 => { c with vAddr := v }
  | 9 => { c with counts := v.setWidth 32 }
  | 10 => { c with entryHi := TlbHi.ofWord v }
  | 12 => { c with status := StatusReg.ofWord v }
  | 13 => { c with cause := c.cause.written v }
  | 14 => { c with epc := v }
  | 16 => { c with config := ConfigReg.ofWord v }
  | 18 => { c with work0 := v }
  | 19 => { c with work1 := v }
  | 20 => { c with pBase := v }
  | 21 => { c with gBase := v }
  | 24 => { c with wired := wiredOfWord v }
  | 28 => { c with dCache := DCacheReg.ofWord v }
  | 29 => { c with iasid := v.extractLsb' Layout.iCacheIasid 8 }
  | _ => c

/-- The windows that a DMTC0 opens, each holding the value in force until now (R667, R668, log 47). -/
def State.openWindow (s : State) (rd : Reg) : Late :=
  match rd.toNat with
  | 6 => { s.late with trapBase := some ⟨s.trapBaseView, 2⟩ }
  | 9 => { s.late with counts := some ⟨s.ip10, 2⟩ }
  | 12 => { s.late with status := some ⟨s.statusView, 4⟩ }
  | 13 => { s.late with cause := some ⟨s.causeView, 2⟩ }
  | 16 => { s.late with config := some ⟨s.configView, 2⟩ }
  | 24 => { s.late with wired := some ⟨s.wiredView, 2⟩ }
  | 29 => { s.late with iasid := some ⟨s.iasidView, 2⟩ }
  | _ => s.late

/-- The state after a DMTC0 (R521). -/
def State.writeCop0 (s : State) (rd : Reg) (v : Word) : State :=
  { s with cp0 := s.cp0.write rd v, late := s.openWindow rd }

/-- A window after one more SSNOP (R667). -/
def LateReg.tick {α : Type} : Option (LateReg α) → Option (LateReg α)
  | none => none
  | some l => if l.left ≤ 1 then none else some { l with left := l.left - 1 }

/-- The windows after one more SSNOP (R667). -/
def Late.tick (l : Late) : Late :=
  ⟨LateReg.tick l.status, LateReg.tick l.trapBase, LateReg.tick l.config, LateReg.tick l.iasid,
    LateReg.tick l.wired, LateReg.tick l.counts, LateReg.tick l.cause⟩

end Sys2Proof.Machine
end

