-- ==== Sys2Proof/Machine/System.lean ====
section
/-! DEFINITION. Coprocessor-0 instructions and SSNOP (47_cop0.md). -/

namespace Sys2Proof.Machine

/-- DMFC0 (R520). -/
def execDmfc0 (rt rd : Reg) (s : State) : Outcome :=
  ((needCop0 s).bind fun _ => .ok (s.setReg rt (s.readCop0 rd)).advance).finish s

/-- DMTC0 (R521). A non-zero reserved bit of Status is undefined (R30, U9, log 36). -/
def execDmtc0 (rt rd : Reg) (s : State) : Outcome :=
  ((needCop0 s).bind fun _ =>
    if rd = 12 ∧ StatusReg.reservedSet (s.reg rt) then .refuse .statusReservedWrite
    else .ok (s.writeCop0 rd (s.reg rt)).advance).finish s

/-- ERET (R522); it must not be in a delay slot (R340, log 49). -/
def execEret (s : State) : Outcome :=
  ((needCop0 s).bind fun _ => (needNotInSlot s).bind fun _ => .ok (returnFromException s)).finish s

/-- SSNOP (R523): no register, flag or memory changes; it separates instructions for the hazard rules (R660, R667). -/
def execSsnop (s : State) : Outcome := (Access.ok { s.advance with late := s.late.tick }).finish s

/-- The state after a probe (R524). -/
def State.probed (s : State) (p : Bool) (set : BitVec 2) : State :=
  { s with cp0 := { s.cp0 with tlbSet := ⟨p, set⟩ } }

/-- TLBP (R524): P and SET; SET is unspecified when nothing matches (U13, log 38); several matches stop the model (D18). -/
def execTlbp (s : State) : Outcome :=
  ((needCop0 s).bind fun _ => s.vAddrEntry.bind fun i =>
    match s.tlbMatches i.1 s.cp0.vAddr i.2 with
    | [] => .ok (s.probed true ((Config.freeWord .probeSet s.draws).setWidth 2)).advance
    | [set] => .ok (s.probed false set).advance
    | _ => .fault .tlbMultipleMatch).finish s

/-- SET = 3 is reserved at TLBR and TLBW (R525, R526, U12, log 36). -/
def needTlbSet (s : State) : Access Unit := if s.cp0.tlbSet.set = 3 then .refuse .reservedTlbSet else .ok ()

/-- The state after a TLB entry is read into EntryHi and EntryLo (R525). -/
def State.readTlb (s : State) (e : TlbEntry) : State :=
  { s with cp0 := { s.cp0 with entryHi := e.hi, entryLo := e.lo } }

/-- TLBR (R525). -/
def execTlbr (s : State) : Outcome :=
  ((needCop0 s).bind fun _ => (needTlbSet s).bind fun _ => s.vAddrEntry.bind fun i =>
    .ok (s.readTlb (s.tlbEntry i.1 s.cp0.tlbSet.set)).advance).finish s

/-- TLBW (R526). -/
def execTlbw (s : State) : Outcome :=
  ((needCop0 s).bind fun _ => (needTlbSet s).bind fun _ => s.vAddrEntry.bind fun i =>
    .ok (s.setTlbEntry i.1 s.cp0.tlbSet.set ⟨s.cp0.entryHi, s.cp0.entryLo⟩).advance).finish s

/-- The valid bits of the half line that VAddr selects: V[i] belongs to the word at offset 4i (R527). -/
def DCacheLine.half (l : DCacheLine) (upper : Bool) : BitVec 4 :=
  if upper then l.valid.extractLsb' 4 4 else l.valid.extractLsb' 0 4

/-- A line whose tag, exclusive bit and one half of the valid bits are written (R528). -/
def DCacheLine.writeHalf (l : DCacheLine) (upper : Bool) (r : DCacheReg) : DCacheLine :=
  { l with
    tag := r.tag
    exclusive := r.e
    valid := if upper then r.v ++ l.valid.extractLsb' 0 4 else l.valid.extractLsb' 4 4 ++ r.v }

/-- DCTR (R527): the entry is VAddr[13:4]; H is unspecified (U33, log 42), and so are V before a DCTW has written the half line,
and TAG and E, one pair per line, before a DCTW has written either half of the line (U4, log 9). -/
def execDctr (s : State) : Outcome :=
  ((needCop0 s).bind fun _ =>
    let l := s.dline (dcacheIndex s.cp0.vAddr)
    let free := DCacheReg.ofWord (Config.freeWord .dcacheUnwritten s.draws)
    let tagReady := s.dcacheTagReady s.cp0.vAddr
    let r : DCacheReg :=
      { h := Config.freeBool .dctrHit s.draws
        tag := if tagReady then l.tag else free.tag
        v := if s.dcacheReady s.cp0.vAddr then l.half (s.cp0.vAddr.getLsbD 4) else free.v
        e := if tagReady then l.exclusive else free.e }
    .ok { s.advance with cp0 := { s.cp0 with dCache := r } }).finish s

/-- DCTW (R528): the entry is VAddr[13:4]; the data array is kept, so V may be anything (log 42). -/
def execDctw (s : State) : Outcome :=
  ((needCop0 s).bind fun _ =>
    let k := dcacheIndex s.cp0.vAddr
    let t := s.setDline k ((s.dline k).writeHalf (s.cp0.vAddr.getLsbD 4) s.cp0.dCache)
    .ok { t.advance with dcacheWritten := s.dcacheMark s.cp0.vAddr }).finish s

end Sys2Proof.Machine
end

