-- ==== Sys2Proof/Machine/Trap.lean ====
section
/-! DEFINITION. Trap instructions, SYSCALL and BREAK (44_trap_sys.md). -/

namespace Sys2Proof.Machine

/-- Completion of a trap instruction: the Trap exception when the condition holds, else nothing but the PC (R394). -/
def State.trapIf (s : State) (c : Bool) : Access State := if c then .raise .trap else .ok s.advance

/-- TGE (R380); the code field is ignored. -/
def execTge (rs rt : Reg) (_code : BitVec 10) (s : State) : Outcome :=
  (s.trapIf ((s.reg rt).sle (s.reg rs))).finish s

/-- TGEU (R381); the code field is ignored. -/
def execTgeu (rs rt : Reg) (_code : BitVec 10) (s : State) : Outcome :=
  (s.trapIf ((s.reg rt).ule (s.reg rs))).finish s

/-- TLT (R382); the code field is ignored. -/
def execTlt (rs rt : Reg) (_code : BitVec 10) (s : State) : Outcome :=
  (s.trapIf ((s.reg rs).slt (s.reg rt))).finish s

/-- TLTU (R383); the code field is ignored. -/
def execTltu (rs rt : Reg) (_code : BitVec 10) (s : State) : Outcome :=
  (s.trapIf ((s.reg rs).ult (s.reg rt))).finish s

/-- TEQ (R384); the code field is ignored. -/
def execTeq (rs rt : Reg) (_code : BitVec 10) (s : State) : Outcome :=
  (s.trapIf (s.reg rs == s.reg rt)).finish s

/-- TNE (R385); the code field is ignored. -/
def execTne (rs rt : Reg) (_code : BitVec 10) (s : State) : Outcome :=
  (s.trapIf (s.reg rs != s.reg rt)).finish s

/-- TGEI (R386). -/
def execTgei (rs : Reg) (imm : BitVec 16) (s : State) : Outcome :=
  (s.trapIf ((sext16 imm).sle (s.reg rs))).finish s

/-- TGEIU (R387). -/
def execTgeiu (rs : Reg) (imm : BitVec 16) (s : State) : Outcome :=
  (s.trapIf ((sext16 imm).ule (s.reg rs))).finish s

/-- TLTI (R388). -/
def execTlti (rs : Reg) (imm : BitVec 16) (s : State) : Outcome :=
  (s.trapIf ((s.reg rs).slt (sext16 imm))).finish s

/-- TLTIU (R389). -/
def execTltiu (rs : Reg) (imm : BitVec 16) (s : State) : Outcome :=
  (s.trapIf ((s.reg rs).ult (sext16 imm))).finish s

/-- TEQI (R390). -/
def execTeqi (rs : Reg) (imm : BitVec 16) (s : State) : Outcome :=
  (s.trapIf (s.reg rs == sext16 imm)).finish s

/-- TNEI (R391). -/
def execTnei (rs : Reg) (imm : BitVec 16) (s : State) : Outcome :=
  (s.trapIf (s.reg rs != sext16 imm)).finish s

/-- SYSCALL (R392); the code field is ignored. -/
def execSyscall (_code : BitVec 20) (s : State) : Outcome :=
  (Access.raise .systemCall).finish s

/-- BREAK (R393); the code field is ignored. -/
def execBrk (_code : BitVec 20) (s : State) : Outcome :=
  (Access.raise .breakpoint).finish s

end Sys2Proof.Machine
end

