-- ==== Sys2Proof/Syntax.lean ====
section
/-! DEFINITION. The syntax of the instruction set: one constructor for each row of spec/opcode_table.json, its operands
in the row's order (R171, R189). -/

namespace Sys2Proof

/-- The 236 instructions of spec/opcode_table.json. Each constructor names the rule of spec/ that gives its meaning. -/
inductive Instr where
  /-- SSNOP (R523) -/
  | ssnop
  /-- ADD (R200) -/
  | add (rs : Reg) (rt : Reg) (rd : Reg)
  /-- ADDU (R202) -/
  | addu (rs : Reg) (rt : Reg) (rd : Reg)
  /-- SUB (R207) -/
  | sub (rs : Reg) (rt : Reg) (rd : Reg)
  /-- SUBU (R208) -/
  | subu (rs : Reg) (rt : Reg) (rd : Reg)
  /-- DADD (R204) -/
  | dadd (rs : Reg) (rt : Reg) (rd : Reg)
  /-- DADDU (R209) -/
  | daddu (rs : Reg) (rt : Reg) (rd : Reg)
  /-- DSUB (R210) -/
  | dsub (rs : Reg) (rt : Reg) (rd : Reg)
  /-- DSUBU (R211) -/
  | dsubu (rs : Reg) (rt : Reg) (rd : Reg)
  /-- AND (R212) -/
  | and (rs : Reg) (rt : Reg) (rd : Reg)
  /-- OR (R213) -/
  | or (rs : Reg) (rt : Reg) (rd : Reg)
  /-- XOR (R214) -/
  | xor (rs : Reg) (rt : Reg) (rd : Reg)
  /-- NOR (R215) -/
  | nor (rs : Reg) (rt : Reg) (rd : Reg)
  /-- SLT (R223) -/
  | slt (rs : Reg) (rt : Reg) (rd : Reg)
  /-- SLTU (R224) -/
  | sltu (rs : Reg) (rt : Reg) (rd : Reg)
  /-- MOVZ (R260) -/
  | movz (rs : Reg) (rt : Reg) (rd : Reg)
  /-- MOVN (R261) -/
  | movn (rs : Reg) (rt : Reg) (rd : Reg)
  /-- ADDI (R201) -/
  | addi (rs : Reg) (rt : Reg) (imm : BitVec 16)
  /-- ADDIU (R203) -/
  | addiu (rs : Reg) (rt : Reg) (imm : BitVec 16)
  /-- DADDI (R205) -/
  | daddi (rs : Reg) (rt : Reg) (imm : BitVec 16)
  /-- DADDIU (R206) -/
  | daddiu (rs : Reg) (rt : Reg) (imm : BitVec 16)
  /-- SLTI (R225) -/
  | slti (rs : Reg) (rt : Reg) (imm : BitVec 16)
  /-- SLTIU (R226) -/
  | sltiu (rs : Reg) (rt : Reg) (imm : BitVec 16)
  /-- ANDI (R216) -/
  | andi (rs : Reg) (rt : Reg) (imm : BitVec 16)
  /-- ORI (R217) -/
  | ori (rs : Reg) (rt : Reg) (imm : BitVec 16)
  /-- XORI (R218) -/
  | xori (rs : Reg) (rt : Reg) (imm : BitVec 16)
  /-- LUI (R219) -/
  | lui (rt : Reg) (imm : BitVec 16)
  /-- SLL (R230) -/
  | sll (rt : Reg) (rd : Reg) (sa : BitVec 5)
  /-- SRL (R231) -/
  | srl (rt : Reg) (rd : Reg) (sa : BitVec 5)
  /-- SRA (R232) -/
  | sra (rt : Reg) (rd : Reg) (sa : BitVec 5)
  /-- DSLL (R236) -/
  | dsll (rt : Reg) (rd : Reg) (sa : BitVec 5)
  /-- DSRL (R237) -/
  | dsrl (rt : Reg) (rd : Reg) (sa : BitVec 5)
  /-- DSRA (R238) -/
  | dsra (rt : Reg) (rd : Reg) (sa : BitVec 5)
  /-- DSLL32 (R239) -/
  | dsll32 (rt : Reg) (rd : Reg) (sa : BitVec 5)
  /-- DSRL32 (R240) -/
  | dsrl32 (rt : Reg) (rd : Reg) (sa : BitVec 5)
  /-- DSRA32 (R241) -/
  | dsra32 (rt : Reg) (rd : Reg) (sa : BitVec 5)
  /-- SLLV (R233) -/
  | sllv (rs : Reg) (rt : Reg) (rd : Reg)
  /-- SRLV (R234) -/
  | srlv (rs : Reg) (rt : Reg) (rd : Reg)
  /-- SRAV (R235) -/
  | srav (rs : Reg) (rt : Reg) (rd : Reg)
  /-- DSLLV (R242) -/
  | dsllv (rs : Reg) (rt : Reg) (rd : Reg)
  /-- DSRLV (R243) -/
  | dsrlv (rs : Reg) (rt : Reg) (rd : Reg)
  /-- DSRAV (R244) -/
  | dsrav (rs : Reg) (rt : Reg) (rd : Reg)
  /-- MOVF (R262) -/
  | movf (rs : Reg) (cc : CC) (rd : Reg)
  /-- MOVT (R263) -/
  | movt (rs : Reg) (cc : CC) (rd : Reg)
  /-- MULT (R270) -/
  | mult (rs : Reg) (rt : Reg)
  /-- MULTU (R271) -/
  | multu (rs : Reg) (rt : Reg)
  /-- DIV (R272) -/
  | div (rs : Reg) (rt : Reg)
  /-- DIVU (R273) -/
  | divu (rs : Reg) (rt : Reg)
  /-- DMULT (R274) -/
  | dmult (rs : Reg) (rt : Reg)
  /-- DMULTU (R275) -/
  | dmultu (rs : Reg) (rt : Reg)
  /-- DDIV (R276) -/
  | ddiv (rs : Reg) (rt : Reg)
  /-- DDIVU (R277) -/
  | ddivu (rs : Reg) (rt : Reg)
  /-- MFHI (R280) -/
  | mfhi (rd : Reg)
  /-- MTHI (R281) -/
  | mthi (rs : Reg)
  /-- MFLO (R282) -/
  | mflo (rd : Reg)
  /-- MTLO (R283) -/
  | mtlo (rs : Reg)
  /-- LB (R290) -/
  | lb (base : Reg) (rt : Reg) (offset : BitVec 16)
  /-- LBU (R291) -/
  | lbu (base : Reg) (rt : Reg) (offset : BitVec 16)
  /-- LH (R292) -/
  | lh (base : Reg) (rt : Reg) (offset : BitVec 16)
  /-- LHU (R293) -/
  | lhu (base : Reg) (rt : Reg) (offset : BitVec 16)
  /-- LW (R294) -/
  | lw (base : Reg) (rt : Reg) (offset : BitVec 16)
  /-- LWU (R295) -/
  | lwu (base : Reg) (rt : Reg) (offset : BitVec 16)
  /-- LD (R296) -/
  | ld (base : Reg) (rt : Reg) (offset : BitVec 16)
  /-- SB (R297) -/
  | sb (base : Reg) (rt : Reg) (offset : BitVec 16)
  /-- SH (R298) -/
  | sh (base : Reg) (rt : Reg) (offset : BitVec 16)
  /-- SW (R299) -/
  | sw (base : Reg) (rt : Reg) (offset : BitVec 16)
  /-- SD (R300) -/
  | sd (base : Reg) (rt : Reg) (offset : BitVec 16)
  /-- LWL (R306) -/
  | lwl (base : Reg) (rt : Reg) (offset : BitVec 16)
  /-- LWR (R307) -/
  | lwr (base : Reg) (rt : Reg) (offset : BitVec 16)
  /-- SWL (R308) -/
  | swl (base : Reg) (rt : Reg) (offset : BitVec 16)
  /-- SWR (R309) -/
  | swr (base : Reg) (rt : Reg) (offset : BitVec 16)
  /-- LDL (R310) -/
  | ldl (base : Reg) (rt : Reg) (offset : BitVec 16)
  /-- LDR (R311) -/
  | ldr (base : Reg) (rt : Reg) (offset : BitVec 16)
  /-- SDL (R312) -/
  | sdl (base : Reg) (rt : Reg) (offset : BitVec 16)
  /-- SDR (R313) -/
  | sdr (base : Reg) (rt : Reg) (offset : BitVec 16)
  /-- LL (R320) -/
  | ll (base : Reg) (rt : Reg) (offset : BitVec 16)
  /-- LLD (R321) -/
  | lld (base : Reg) (rt : Reg) (offset : BitVec 16)
  /-- SC (R322) -/
  | sc (base : Reg) (rt : Reg) (offset : BitVec 16)
  /-- SCD (R323) -/
  | scd (base : Reg) (rt : Reg) (offset : BitVec 16)
  /-- SYNC (R326) -/
  | sync (stype : BitVec 5)
  /-- PREF (R330) -/
  | pref (base : Reg) (hint : BitVec 5) (offset : BitVec 16)
  /-- J (R342) -/
  | j (target : BitVec 26)
  /-- JAL (R343) -/
  | jal (target : BitVec 26)
  /-- JR (R344) -/
  | jr (rs : Reg)
  /-- JALR (R345) -/
  | jalr (rs : Reg) (rd : Reg)
  /-- BEQ (R346) -/
  | beq (rs : Reg) (rt : Reg) (offset : BitVec 16)
  /-- BNE (R347) -/
  | bne (rs : Reg) (rt : Reg) (offset : BitVec 16)
  /-- BEQL (R352) -/
  | beql (rs : Reg) (rt : Reg) (offset : BitVec 16)
  /-- BNEL (R353) -/
  | bnel (rs : Reg) (rt : Reg) (offset : BitVec 16)
  /-- BLEZ (R348) -/
  | blez (rs : Reg) (offset : BitVec 16)
  /-- BGTZ (R349) -/
  | bgtz (rs : Reg) (offset : BitVec 16)
  /-- BLEZL (R354) -/
  | blezl (rs : Reg) (offset : BitVec 16)
  /-- BGTZL (R355) -/
  | bgtzl (rs : Reg) (offset : BitVec 16)
  /-- BLTZ (R350) -/
  | bltz (rs : Reg) (offset : BitVec 16)
  /-- BGEZ (R351) -/
  | bgez (rs : Reg) (offset : BitVec 16)
  /-- BLTZL (R356) -/
  | bltzl (rs : Reg) (offset : BitVec 16)
  /-- BGEZL (R357) -/
  | bgezl (rs : Reg) (offset : BitVec 16)
  /-- BLTZAL (R358) -/
  | bltzal (rs : Reg) (offset : BitVec 16)
  /-- BGEZAL (R359) -/
  | bgezal (rs : Reg) (offset : BitVec 16)
  /-- BLTZALL (R360) -/
  | bltzall (rs : Reg) (offset : BitVec 16)
  /-- BGEZALL (R361) -/
  | bgezall (rs : Reg) (offset : BitVec 16)
  /-- TGE (R380) -/
  | tge (rs : Reg) (rt : Reg) (code : BitVec 10)
  /-- TGEU (R381) -/
  | tgeu (rs : Reg) (rt : Reg) (code : BitVec 10)
  /-- TLT (R382) -/
  | tlt (rs : Reg) (rt : Reg) (code : BitVec 10)
  /-- TLTU (R383) -/
  | tltu (rs : Reg) (rt : Reg) (code : BitVec 10)
  /-- TEQ (R384) -/
  | teq (rs : Reg) (rt : Reg) (code : BitVec 10)
  /-- TNE (R385) -/
  | tne (rs : Reg) (rt : Reg) (code : BitVec 10)
  /-- TGEI (R386) -/
  | tgei (rs : Reg) (imm : BitVec 16)
  /-- TGEIU (R387) -/
  | tgeiu (rs : Reg) (imm : BitVec 16)
  /-- TLTI (R388) -/
  | tlti (rs : Reg) (imm : BitVec 16)
  /-- TLTIU (R389) -/
  | tltiu (rs : Reg) (imm : BitVec 16)
  /-- TEQI (R390) -/
  | teqi (rs : Reg) (imm : BitVec 16)
  /-- TNEI (R391) -/
  | tnei (rs : Reg) (imm : BitVec 16)
  /-- SYSCALL (R392) -/
  | syscall (code : BitVec 20)
  /-- BREAK (R393) -/
  | brk (code : BitVec 20)
  /-- ADD.S (R402) -/
  | addS (ft : Reg) (fs : Reg) (fd : Reg)
  /-- ADD.D (R402) -/
  | addD (ft : Reg) (fs : Reg) (fd : Reg)
  /-- SUB.S (R403) -/
  | subS (ft : Reg) (fs : Reg) (fd : Reg)
  /-- SUB.D (R403) -/
  | subD (ft : Reg) (fs : Reg) (fd : Reg)
  /-- MUL.S (R404) -/
  | mulS (ft : Reg) (fs : Reg) (fd : Reg)
  /-- MUL.D (R404) -/
  | mulD (ft : Reg) (fs : Reg) (fd : Reg)
  /-- DIV.S (R405) -/
  | divS (ft : Reg) (fs : Reg) (fd : Reg)
  /-- DIV.D (R405) -/
  | divD (ft : Reg) (fs : Reg) (fd : Reg)
  /-- SQRT.S (R406) -/
  | sqrtS (fs : Reg) (fd : Reg)
  /-- SQRT.D (R406) -/
  | sqrtD (fs : Reg) (fd : Reg)
  /-- ABS.S (R407) -/
  | absS (fs : Reg) (fd : Reg)
  /-- ABS.D (R407) -/
  | absD (fs : Reg) (fd : Reg)
  /-- NEG.S (R408) -/
  | negS (fs : Reg) (fd : Reg)
  /-- NEG.D (R408) -/
  | negD (fs : Reg) (fd : Reg)
  /-- RECIP.S (R409) -/
  | recipS (fs : Reg) (fd : Reg)
  /-- RECIP.D (R409) -/
  | recipD (fs : Reg) (fd : Reg)
  /-- RSQRT.S (R410) -/
  | rsqrtS (fs : Reg) (fd : Reg)
  /-- RSQRT.D (R410) -/
  | rsqrtD (fs : Reg) (fd : Reg)
  /-- ROUND.L.S (R420) -/
  | roundLS (fs : Reg) (fd : Reg)
  /-- ROUND.L.D (R420) -/
  | roundLD (fs : Reg) (fd : Reg)
  /-- TRUNC.L.S (R421) -/
  | truncLS (fs : Reg) (fd : Reg)
  /-- TRUNC.L.D (R421) -/
  | truncLD (fs : Reg) (fd : Reg)
  /-- CEIL.L.S (R422) -/
  | ceilLS (fs : Reg) (fd : Reg)
  /-- CEIL.L.D (R422) -/
  | ceilLD (fs : Reg) (fd : Reg)
  /-- FLOOR.L.S (R423) -/
  | floorLS (fs : Reg) (fd : Reg)
  /-- FLOOR.L.D (R423) -/
  | floorLD (fs : Reg) (fd : Reg)
  /-- ROUND.W.S (R424) -/
  | roundWS (fs : Reg) (fd : Reg)
  /-- ROUND.W.D (R424) -/
  | roundWD (fs : Reg) (fd : Reg)
  /-- TRUNC.W.S (R425) -/
  | truncWS (fs : Reg) (fd : Reg)
  /-- TRUNC.W.D (R425) -/
  | truncWD (fs : Reg) (fd : Reg)
  /-- CEIL.W.S (R426) -/
  | ceilWS (fs : Reg) (fd : Reg)
  /-- CEIL.W.D (R426) -/
  | ceilWD (fs : Reg) (fd : Reg)
  /-- FLOOR.W.S (R427) -/
  | floorWS (fs : Reg) (fd : Reg)
  /-- FLOOR.W.D (R427) -/
  | floorWD (fs : Reg) (fd : Reg)
  /-- CVT.W.S (R430) -/
  | cvtWS (fs : Reg) (fd : Reg)
  /-- CVT.W.D (R430) -/
  | cvtWD (fs : Reg) (fd : Reg)
  /-- CVT.L.S (R431) -/
  | cvtLS (fs : Reg) (fd : Reg)
  /-- CVT.L.D (R431) -/
  | cvtLD (fs : Reg) (fd : Reg)
  /-- CVT.S.D (R428) -/
  | cvtSD (fs : Reg) (fd : Reg)
  /-- CVT.S.W (R428) -/
  | cvtSW (fs : Reg) (fd : Reg)
  /-- CVT.S.L (R428) -/
  | cvtSL (fs : Reg) (fd : Reg)
  /-- CVT.D.S (R429) -/
  | cvtDS (fs : Reg) (fd : Reg)
  /-- CVT.D.W (R429) -/
  | cvtDW (fs : Reg) (fd : Reg)
  /-- CVT.D.L (R429) -/
  | cvtDL (fs : Reg) (fd : Reg)
  /-- MADD.S (R411) -/
  | maddS (fr : Reg) (ft : Reg) (fs : Reg) (fd : Reg)
  /-- MADD.D (R411) -/
  | maddD (fr : Reg) (ft : Reg) (fs : Reg) (fd : Reg)
  /-- MSUB.S (R412) -/
  | msubS (fr : Reg) (ft : Reg) (fs : Reg) (fd : Reg)
  /-- MSUB.D (R412) -/
  | msubD (fr : Reg) (ft : Reg) (fs : Reg) (fd : Reg)
  /-- NMADD.S (R413) -/
  | nmaddS (fr : Reg) (ft : Reg) (fs : Reg) (fd : Reg)
  /-- NMADD.D (R413) -/
  | nmaddD (fr : Reg) (ft : Reg) (fs : Reg) (fd : Reg)
  /-- NMSUB.S (R414) -/
  | nmsubS (fr : Reg) (ft : Reg) (fs : Reg) (fd : Reg)
  /-- NMSUB.D (R414) -/
  | nmsubD (fr : Reg) (ft : Reg) (fs : Reg) (fd : Reg)
  /-- C.F.S (R440) -/
  | cFS (ft : Reg) (fs : Reg) (cc : CC)
  /-- C.UN.S (R440) -/
  | cUnS (ft : Reg) (fs : Reg) (cc : CC)
  /-- C.EQ.S (R440) -/
  | cEqS (ft : Reg) (fs : Reg) (cc : CC)
  /-- C.UEQ.S (R440) -/
  | cUeqS (ft : Reg) (fs : Reg) (cc : CC)
  /-- C.OLT.S (R440) -/
  | cOltS (ft : Reg) (fs : Reg) (cc : CC)
  /-- C.ULT.S (R440) -/
  | cUltS (ft : Reg) (fs : Reg) (cc : CC)
  /-- C.OLE.S (R440) -/
  | cOleS (ft : Reg) (fs : Reg) (cc : CC)
  /-- C.ULE.S (R440) -/
  | cUleS (ft : Reg) (fs : Reg) (cc : CC)
  /-- C.SF.S (R440) -/
  | cSfS (ft : Reg) (fs : Reg) (cc : CC)
  /-- C.NGLE.S (R440) -/
  | cNgleS (ft : Reg) (fs : Reg) (cc : CC)
  /-- C.SEQ.S (R440) -/
  | cSeqS (ft : Reg) (fs : Reg) (cc : CC)
  /-- C.NGL.S (R440) -/
  | cNglS (ft : Reg) (fs : Reg) (cc : CC)
  /-- C.LT.S (R440) -/
  | cLtS (ft : Reg) (fs : Reg) (cc : CC)
  /-- C.NGE.S (R440) -/
  | cNgeS (ft : Reg) (fs : Reg) (cc : CC)
  /-- C.LE.S (R440) -/
  | cLeS (ft : Reg) (fs : Reg) (cc : CC)
  /-- C.NGT.S (R440) -/
  | cNgtS (ft : Reg) (fs : Reg) (cc : CC)
  /-- C.F.D (R440) -/
  | cFD (ft : Reg) (fs : Reg) (cc : CC)
  /-- C.UN.D (R440) -/
  | cUnD (ft : Reg) (fs : Reg) (cc : CC)
  /-- C.EQ.D (R440) -/
  | cEqD (ft : Reg) (fs : Reg) (cc : CC)
  /-- C.UEQ.D (R440) -/
  | cUeqD (ft : Reg) (fs : Reg) (cc : CC)
  /-- C.OLT.D (R440) -/
  | cOltD (ft : Reg) (fs : Reg) (cc : CC)
  /-- C.ULT.D (R440) -/
  | cUltD (ft : Reg) (fs : Reg) (cc : CC)
  /-- C.OLE.D (R440) -/
  | cOleD (ft : Reg) (fs : Reg) (cc : CC)
  /-- C.ULE.D (R440) -/
  | cUleD (ft : Reg) (fs : Reg) (cc : CC)
  /-- C.SF.D (R440) -/
  | cSfD (ft : Reg) (fs : Reg) (cc : CC)
  /-- C.NGLE.D (R440) -/
  | cNgleD (ft : Reg) (fs : Reg) (cc : CC)
  /-- C.SEQ.D (R440) -/
  | cSeqD (ft : Reg) (fs : Reg) (cc : CC)
  /-- C.NGL.D (R440) -/
  | cNglD (ft : Reg) (fs : Reg) (cc : CC)
  /-- C.LT.D (R440) -/
  | cLtD (ft : Reg) (fs : Reg) (cc : CC)
  /-- C.NGE.D (R440) -/
  | cNgeD (ft : Reg) (fs : Reg) (cc : CC)
  /-- C.LE.D (R440) -/
  | cLeD (ft : Reg) (fs : Reg) (cc : CC)
  /-- C.NGT.D (R440) -/
  | cNgtD (ft : Reg) (fs : Reg) (cc : CC)
  /-- LWC1 (R460) -/
  | lwc1 (base : Reg) (ft : Reg) (offset : BitVec 16)
  /-- LDC1 (R461) -/
  | ldc1 (base : Reg) (ft : Reg) (offset : BitVec 16)
  /-- SWC1 (R462) -/
  | swc1 (base : Reg) (ft : Reg) (offset : BitVec 16)
  /-- SDC1 (R463) -/
  | sdc1 (base : Reg) (ft : Reg) (offset : BitVec 16)
  /-- LWXC1 (R470) -/
  | lwxc1 (base : Reg) (index : Reg) (fd : Reg)
  /-- LDXC1 (R471) -/
  | ldxc1 (base : Reg) (index : Reg) (fd : Reg)
  /-- SWXC1 (R472) -/
  | swxc1 (base : Reg) (index : Reg) (fs : Reg)
  /-- SDXC1 (R473) -/
  | sdxc1 (base : Reg) (index : Reg) (fs : Reg)
  /-- PFETCH (R474) -/
  | pfetch (base : Reg) (index : Reg) (hint : BitVec 5)
  /-- MFC1 (R480) -/
  | mfc1 (rt : Reg) (fs : Reg)
  /-- DMFC1 (R481) -/
  | dmfc1 (rt : Reg) (fs : Reg)
  /-- CFC1 (R484) -/
  | cfc1 (rt : Reg) (fs : Reg)
  /-- MTC1 (R482) -/
  | mtc1 (rt : Reg) (fs : Reg)
  /-- DMTC1 (R483) -/
  | dmtc1 (rt : Reg) (fs : Reg)
  /-- CTC1 (R485) -/
  | ctc1 (rt : Reg) (fs : Reg)
  /-- BC1F (R490) -/
  | bc1f (cc : CC) (offset : BitVec 16)
  /-- BC1T (R491) -/
  | bc1t (cc : CC) (offset : BitVec 16)
  /-- BC1FL (R492) -/
  | bc1fl (cc : CC) (offset : BitVec 16)
  /-- BC1TL (R493) -/
  | bc1tl (cc : CC) (offset : BitVec 16)
  /-- MOV.S (R494) -/
  | movS (fs : Reg) (fd : Reg)
  /-- MOVF.S (R496) -/
  | movfS (cc : CC) (fs : Reg) (fd : Reg)
  /-- MOVT.S (R497) -/
  | movtS (cc : CC) (fs : Reg) (fd : Reg)
  /-- MOVZ.S (R498) -/
  | movzS (rt : Reg) (fs : Reg) (fd : Reg)
  /-- MOVN.S (R499) -/
  | movnS (rt : Reg) (fs : Reg) (fd : Reg)
  /-- MOV.D (R494) -/
  | movD (fs : Reg) (fd : Reg)
  /-- MOVF.D (R496) -/
  | movfD (cc : CC) (fs : Reg) (fd : Reg)
  /-- MOVT.D (R497) -/
  | movtD (cc : CC) (fs : Reg) (fd : Reg)
  /-- MOVZ.D (R498) -/
  | movzD (rt : Reg) (fs : Reg) (fd : Reg)
  /-- MOVN.D (R499) -/
  | movnD (rt : Reg) (fs : Reg) (fd : Reg)
  /-- DMFC0 (R520) -/
  | dmfc0 (rt : Reg) (rd : Reg)
  /-- DMTC0 (R521) -/
  | dmtc0 (rt : Reg) (rd : Reg)
  /-- TLBR (R525) -/
  | tlbr
  /-- TLBP (R524) -/
  | tlbp
  /-- ERET (R522) -/
  | eret
  /-- TLBW (R526) -/
  | tlbw
  /-- DCTR (R527) -/
  | dctr
  /-- DCTW (R528) -/
  | dctw
  deriving DecidableEq, Repr

end Sys2Proof
end

