-- ==== Sys2Proof/Machine/Events.lean ====
section
/-! DEFINITION. What happens between two instructions: bus events, the posting of asynchronous conditions, the cycle counter,
and when an interrupt or an NMI is taken (R594 to R600, R642; logs 29 to 31, 48, 52). -/

namespace Sys2Proof.Machine

/-- The state with the next draw: the free values of what follows are new ones (log 12). -/
def State.draw (s : State) : State := { s with draws := s.draws + 1 }

/-- An interrupt status transfer: each enable says whether its field is loaded (R595). -/
def State.interruptStatus (s : State) (ipEn nmiEn beEn : Bool) (ip : BitVec 6) (nmi be : Bool) : State :=
  let c := s.cp0.cause
  { s with
    cp0 :=
      { s.cp0 with
        cause :=
          { c with
            ip := if ipEn then (c.ip &&& 0b1100000011#10) ||| (ip.setWidth 10 <<< 2) else c.ip
            be := if beEn then be else c.be } }
    nmiPending := s.nmiPending || (nmiEn && nmi) }

/-- A parity error: IP8 for the even bank, IP9 for the odd one (R600). -/
def State.parityError (s : State) (odd : Bool) : State :=
  let c := s.cp0.cause
  { s with cp0 := { s.cp0 with cause := { c with ip := c.ip ||| (if odd then 0b1000000000#10 else 0b0100000000#10) } } }

/-- A hard reset while the machine runs: everything but memory, the physical map, the events still to come and the draw counter
is as after reset (R640, log 52). -/
def State.hardReset (s : State) : State :=
  { State.reset with
    physMap := s.physMap, mem := s.mem, byteOrder := s.byteOrder, inputs := s.inputs, draws := s.draws }

/-- The state after a bus event (R595, R156, R600, R640). -/
def State.receive (s : State) : BusEvent → State
  | .idle => s
  | .interruptStatus ipEn nmiEn beEn ip nmi be => s.interruptStatus ipEn nmiEn beEn ip nmi be
  | .invalidateDCache line => s.invalidateLine line
  | .parityError odd => s.parityError odd
  | .hardReset => s.hardReset

/-- The state after the next bus event, if there is one (log 30). -/
def State.takeInput (s : State) : State :=
  match s.inputs with
  | [] => s
  | e :: rest => State.receive { s with inputs := rest } e

/-- The state after a number of detected virtual coherence violations are posted, oldest first: Cause.VCI is set, and BadPAddr
gets the address captured among them, if there is one (R36, R596). -/
def State.postViolations (s : State) (n : Nat) : State :=
  match s.vciPending.take n with
  | [] => s
  | posted =>
    { s with
      vciPending := s.vciPending.drop n
      cp0 :=
        { s.cp0 with
          badPAddr := (posted.findSome? id).getD s.cp0.badPAddr
          cause := { s.cp0.cause with vci := true } } }

/-- The detected virtual coherence violations are posted at free times (R596, U44, log 43). -/
def State.postViolation (s : State) : State :=
  if s.vciPending.isEmpty then s else s.postViolations (Config.freeNat .vci s.draws % (s.vciPending.length + 1))

/-- The CPU sees a change of the floating-point interrupt condition at a free time (R597, log 29). -/
def State.followFpi (s : State) : State :=
  if s.fsr.fpi = s.fpiSeen then s
  else if Config.freeBool .fpi s.draws then { s with fpiSeen := s.fsr.fpi } else s

/-- The cycle counter advances by a free positive amount, but not at exception level with Config.ICE (R38, R598, log 48). -/
def State.tick (s : State) : State :=
  if s.configView.ice && s.statusView.exl then s
  else
    { s with
      cp0 := { s.cp0 with counts := s.cp0.counts + 1 + BitVec.ofNat 32 (Config.freeNat .cycles s.draws) } }

/-- What happens between two instructions, before the next one. -/
def State.boundary (s : State) : State := s.draw.takeInput.postViolation.followFpi.tick

/-- The eleven pending bits: IP10 and IP[9:0] (R43). -/
def State.pendingBits (s : State) : BitVec 11 := BitVec.ofBool s.ip10 ++ s.causeView.ip

/-- The condition of a maskable interrupt (R594). -/
def State.maskable (s : State) : Bool :=
  s.statusView.ie && !s.statusView.exl && s.pendingBits &&& s.statusView.im != 0

/-- The condition of VCI, Bus Error and the floating-point interrupt, which no mask holds off (R594, D35). -/
def State.unmaskable (s : State) : Bool :=
  !s.statusView.exl && (s.causeView.vci || s.cp0.cause.be || s.fpiSeen)

/-- An interrupt is taken before this instruction: its condition holds, and the free delivery time has come (R594, D32). -/
def State.interrupted (s : State) : Bool := (s.maskable || s.unmaskable) && Config.freeBool .interrupt s.draws

/-- An NMI is taken before this instruction (R642, D32). -/
def State.nmiTaken (s : State) : Bool := s.nmiPending && Config.freeBool .nmi s.draws

end Sys2Proof.Machine
end

