-- ==== Sys2Proof/WellFormed.lean ====
section
/-! DEFINITION. Which terms of `Instr` stand for a word of the machine. The types of the operands already bound every
field; the one overlap of the opcode table is left (R189). -/

namespace Sys2Proof

/-- The word of SLL r0, r0, 1 is SSNOP: "The SSNOP row comes first and wins over the SLL row, the only overlap" (R189,
R523, log 15). Every other term is well formed. -/
def Instr.wellFormed (i : Instr) : Bool := i != .sll 0 0 1

end Sys2Proof
end

