-- ==== Sys2Proof/Decode.lean ====
section
/-! DEFINITION. Decoding, total on every word and on every list of bytes, and the encoder written from the same tables
(30_encoding.md R171 to R182). -/

namespace Sys2Proof

/-- Why a word is no instruction. Each of them is a Reserved Instruction (R184), after the coprocessor check (R183). -/
inductive DecodeError where
  /-- A reserved major opcode (R175, R186). -/
  | reservedOpcode
  /-- A reserved function, format or sub-operation of a major opcode (R176 to R181). -/
  | reservedFunction
  /-- A must-be-zero field that is not zero (R172, D24). -/
  | reservedFieldNotZero
  /-- Fewer than four bytes. -/
  | tooShort
  deriving DecidableEq, Repr

/-- The six pieces of an instruction word in the R-type layout, of which every other format is a regrouping (R171). -/
structure Fields where
  op : BitVec 6
  rs : BitVec 5
  rt : BitVec 5
  rd : BitVec 5
  sa : BitVec 5
  fn : BitVec 6
  deriving DecidableEq, Repr

/-- The pieces of a word (R171). -/
def Fields.split (w : IWord) : Fields :=
  ⟨w.extractLsb' 26 6, w.extractLsb' 21 5, w.extractLsb' 16 5, w.extractLsb' 11 5, w.extractLsb' 6 5, w.extractLsb' 0 6⟩

/-- The word of six pieces (R171). -/
def Fields.join (f : Fields) : IWord := f.op ++ f.rs ++ f.rt ++ f.rd ++ f.sa ++ f.fn

/-- SPECIAL, by funct (R176). The word of SSNOP comes before SLL (R189). -/
def decodeSpecial (f : Fields) : Except DecodeError Instr :=
  match f.fn.toNat with
  | 0 => if f.rs = 0 then
        if f.rt = 0 ∧ f.rd = 0 ∧ f.sa = 1 then .ok .ssnop else .ok (.sll f.rt f.rd f.sa)
      else .error .reservedFieldNotZero
  | 1 => if f.rt.extractLsb' 0 2 = 0 then if f.sa = 0 then .ok (.movf f.rs (f.rt.extractLsb' 2 3) f.rd) else .error .reservedFieldNotZero
      else if f.rt.extractLsb' 0 2 = 1 then if f.sa = 0 then .ok (.movt f.rs (f.rt.extractLsb' 2 3) f.rd) else .error .reservedFieldNotZero else .error .reservedFieldNotZero
  | 2 => if f.rs = 0 then .ok (.srl f.rt f.rd f.sa) else .error .reservedFieldNotZero
  | 3 => if f.rs = 0 then .ok (.sra f.rt f.rd f.sa) else .error .reservedFieldNotZero
  | 4 => if f.sa = 0 then .ok (.sllv f.rs f.rt f.rd) else .error .reservedFieldNotZero
  | 6 => if f.sa = 0 then .ok (.srlv f.rs f.rt f.rd) else .error .reservedFieldNotZero
  | 7 => if f.sa = 0 then .ok (.srav f.rs f.rt f.rd) else .error .reservedFieldNotZero
  | 8 => if f.rt = 0 ∧ f.rd = 0 ∧ f.sa = 0 then .ok (.jr f.rs) else .error .reservedFieldNotZero
  | 9 => if f.rt = 0 ∧ f.sa = 0 then .ok (.jalr f.rs f.rd) else .error .reservedFieldNotZero
  | 10 => if f.sa = 0 then .ok (.movz f.rs f.rt f.rd) else .error .reservedFieldNotZero
  | 11 => if f.sa = 0 then .ok (.movn f.rs f.rt f.rd) else .error .reservedFieldNotZero
  | 12 => .ok (.syscall (f.rs ++ f.rt ++ f.rd ++ f.sa))
  | 13 => .ok (.brk (f.rs ++ f.rt ++ f.rd ++ f.sa))
  | 15 => if f.rs = 0 ∧ f.rt = 0 ∧ f.rd = 0 then .ok (.sync f.sa) else .error .reservedFieldNotZero
  | 16 => if f.rs = 0 ∧ f.rt = 0 ∧ f.sa = 0 then .ok (.mfhi f.rd) else .error .reservedFieldNotZero
  | 17 => if f.rt = 0 ∧ f.rd = 0 ∧ f.sa = 0 then .ok (.mthi f.rs) else .error .reservedFieldNotZero
  | 18 => if f.rs = 0 ∧ f.rt = 0 ∧ f.sa = 0 then .ok (.mflo f.rd) else .error .reservedFieldNotZero
  | 19 => if f.rt = 0 ∧ f.rd = 0 ∧ f.sa = 0 then .ok (.mtlo f.rs) else .error .reservedFieldNotZero
  | 20 => if f.sa = 0 then .ok (.dsllv f.rs f.rt f.rd) else .error .reservedFieldNotZero
  | 22 => if f.sa = 0 then .ok (.dsrlv f.rs f.rt f.rd) else .error .reservedFieldNotZero
  | 23 => if f.sa = 0 then .ok (.dsrav f.rs f.rt f.rd) else .error .reservedFieldNotZero
  | 24 => if f.rd = 0 ∧ f.sa = 0 then .ok (.mult f.rs f.rt) else .error .reservedFieldNotZero
  | 25 => if f.rd = 0 ∧ f.sa = 0 then .ok (.multu f.rs f.rt) else .error .reservedFieldNotZero
  | 26 => if f.rd = 0 ∧ f.sa = 0 then .ok (.div f.rs f.rt) else .error .reservedFieldNotZero
  | 27 => if f.rd = 0 ∧ f.sa = 0 then .ok (.divu f.rs f.rt) else .error .reservedFieldNotZero
  | 28 => if f.rd = 0 ∧ f.sa = 0 then .ok (.dmult f.rs f.rt) else .error .reservedFieldNotZero
  | 29 => if f.rd = 0 ∧ f.sa = 0 then .ok (.dmultu f.rs f.rt) else .error .reservedFieldNotZero
  | 30 => if f.rd = 0 ∧ f.sa = 0 then .ok (.ddiv f.rs f.rt) else .error .reservedFieldNotZero
  | 31 => if f.rd = 0 ∧ f.sa = 0 then .ok (.ddivu f.rs f.rt) else .error .reservedFieldNotZero
  | 32 => if f.sa = 0 then .ok (.add f.rs f.rt f.rd) else .error .reservedFieldNotZero
  | 33 => if f.sa = 0 then .ok (.addu f.rs f.rt f.rd) else .error .reservedFieldNotZero
  | 34 => if f.sa = 0 then .ok (.sub f.rs f.rt f.rd) else .error .reservedFieldNotZero
  | 35 => if f.sa = 0 then .ok (.subu f.rs f.rt f.rd) else .error .reservedFieldNotZero
  | 36 => if f.sa = 0 then .ok (.and f.rs f.rt f.rd) else .error .reservedFieldNotZero
  | 37 => if f.sa = 0 then .ok (.or f.rs f.rt f.rd) else .error .reservedFieldNotZero
  | 38 => if f.sa = 0 then .ok (.xor f.rs f.rt f.rd) else .error .reservedFieldNotZero
  | 39 => if f.sa = 0 then .ok (.nor f.rs f.rt f.rd) else .error .reservedFieldNotZero
  | 42 => if f.sa = 0 then .ok (.slt f.rs f.rt f.rd) else .error .reservedFieldNotZero
  | 43 => if f.sa = 0 then .ok (.sltu f.rs f.rt f.rd) else .error .reservedFieldNotZero
  | 44 => if f.sa = 0 then .ok (.dadd f.rs f.rt f.rd) else .error .reservedFieldNotZero
  | 45 => if f.sa = 0 then .ok (.daddu f.rs f.rt f.rd) else .error .reservedFieldNotZero
  | 46 => if f.sa = 0 then .ok (.dsub f.rs f.rt f.rd) else .error .reservedFieldNotZero
  | 47 => if f.sa = 0 then .ok (.dsubu f.rs f.rt f.rd) else .error .reservedFieldNotZero
  | 48 => .ok (.tge f.rs f.rt (f.rd ++ f.sa))
  | 49 => .ok (.tgeu f.rs f.rt (f.rd ++ f.sa))
  | 50 => .ok (.tlt f.rs f.rt (f.rd ++ f.sa))
  | 51 => .ok (.tltu f.rs f.rt (f.rd ++ f.sa))
  | 52 => .ok (.teq f.rs f.rt (f.rd ++ f.sa))
  | 54 => .ok (.tne f.rs f.rt (f.rd ++ f.sa))
  | 56 => if f.rs = 0 then .ok (.dsll f.rt f.rd f.sa) else .error .reservedFieldNotZero
  | 58 => if f.rs = 0 then .ok (.dsrl f.rt f.rd f.sa) else .error .reservedFieldNotZero
  | 59 => if f.rs = 0 then .ok (.dsra f.rt f.rd f.sa) else .error .reservedFieldNotZero
  | 60 => if f.rs = 0 then .ok (.dsll32 f.rt f.rd f.sa) else .error .reservedFieldNotZero
  | 62 => if f.rs = 0 then .ok (.dsrl32 f.rt f.rd f.sa) else .error .reservedFieldNotZero
  | 63 => if f.rs = 0 then .ok (.dsra32 f.rt f.rd f.sa) else .error .reservedFieldNotZero
  | _ => .error .reservedFunction

/-- REGIMM, by rt (R177). -/
def decodeRegimm (f : Fields) : Except DecodeError Instr :=
  match f.rt.toNat with
  | 0 => .ok (.bltz f.rs (f.rd ++ f.sa ++ f.fn))
  | 1 => .ok (.bgez f.rs (f.rd ++ f.sa ++ f.fn))
  | 2 => .ok (.bltzl f.rs (f.rd ++ f.sa ++ f.fn))
  | 3 => .ok (.bgezl f.rs (f.rd ++ f.sa ++ f.fn))
  | 8 => .ok (.tgei f.rs (f.rd ++ f.sa ++ f.fn))
  | 9 => .ok (.tgeiu f.rs (f.rd ++ f.sa ++ f.fn))
  | 10 => .ok (.tlti f.rs (f.rd ++ f.sa ++ f.fn))
  | 11 => .ok (.tltiu f.rs (f.rd ++ f.sa ++ f.fn))
  | 12 => .ok (.teqi f.rs (f.rd ++ f.sa ++ f.fn))
  | 14 => .ok (.tnei f.rs (f.rd ++ f.sa ++ f.fn))
  | 16 => .ok (.bltzal f.rs (f.rd ++ f.sa ++ f.fn))
  | 17 => .ok (.bgezal f.rs (f.rd ++ f.sa ++ f.fn))
  | 18 => .ok (.bltzall f.rs (f.rd ++ f.sa ++ f.fn))
  | 19 => .ok (.bgezall f.rs (f.rd ++ f.sa ++ f.fn))
  | _ => .error .reservedFunction

/-- COP0 operations, by funct; the encodings of TLBW, DCTR and DCTW are parameters (R7, R178, log 14). -/
def decodeCop0Op (f : Fields) : Except DecodeError Instr :=
  if f.rs = 16 ∧ f.rt = 0 ∧ f.rd = 0 ∧ f.sa = 0 then
    match f.fn.toNat with
    | 1 => .ok .tlbr
    | 8 => .ok .tlbp
    | 24 => .ok .eret
    | _ =>
      if f.fn = Config.encTlbw then .ok .tlbw
      else if f.fn = Config.encDctr then .ok .dctr
      else if f.fn = Config.encDctw then .ok .dctw
      else .error .reservedFunction
  else .error .reservedFieldNotZero

/-- COP0, by rs (R178). -/
def decodeCop0 (f : Fields) : Except DecodeError Instr :=
  match f.rs.toNat with
  | 1 => if f.sa = 0 ∧ f.fn = 0 then .ok (.dmfc0 f.rt f.rd) else .error .reservedFieldNotZero
  | 5 => if f.sa = 0 ∧ f.fn = 0 then .ok (.dmtc0 f.rt f.rd) else .error .reservedFieldNotZero
  | 16 => decodeCop0Op f
  | _ => .error .reservedFunction

/-- COP1 with format S, by funct (R180). -/
def decodeFmtS (f : Fields) : Except DecodeError Instr :=
  match f.fn.toNat with
  | 0 => .ok (.addS f.rt f.rd f.sa)
  | 1 => .ok (.subS f.rt f.rd f.sa)
  | 2 => .ok (.mulS f.rt f.rd f.sa)
  | 3 => .ok (.divS f.rt f.rd f.sa)
  | 4 => if f.rt = 0 then .ok (.sqrtS f.rd f.sa) else .error .reservedFieldNotZero
  | 5 => if f.rt = 0 then .ok (.absS f.rd f.sa) else .error .reservedFieldNotZero
  | 6 => if f.rt = 0 then .ok (.movS f.rd f.sa) else .error .reservedFieldNotZero
  | 7 => if f.rt = 0 then .ok (.negS f.rd f.sa) else .error .reservedFieldNotZero
  | 8 => if f.rt = 0 then .ok (.roundLS f.rd f.sa) else .error .reservedFieldNotZero
  | 9 => if f.rt = 0 then .ok (.truncLS f.rd f.sa) else .error .reservedFieldNotZero
  | 10 => if f.rt = 0 then .ok (.ceilLS f.rd f.sa) else .error .reservedFieldNotZero
  | 11 => if f.rt = 0 then .ok (.floorLS f.rd f.sa) else .error .reservedFieldNotZero
  | 12 => if f.rt = 0 then .ok (.roundWS f.rd f.sa) else .error .reservedFieldNotZero
  | 13 => if f.rt = 0 then .ok (.truncWS f.rd f.sa) else .error .reservedFieldNotZero
  | 14 => if f.rt = 0 then .ok (.ceilWS f.rd f.sa) else .error .reservedFieldNotZero
  | 15 => if f.rt = 0 then .ok (.floorWS f.rd f.sa) else .error .reservedFieldNotZero
  | 17 => if f.rt.extractLsb' 0 2 = 0 then .ok (.movfS (f.rt.extractLsb' 2 3) f.rd f.sa)
      else if f.rt.extractLsb' 0 2 = 1 then .ok (.movtS (f.rt.extractLsb' 2 3) f.rd f.sa) else .error .reservedFieldNotZero
  | 18 => .ok (.movzS f.rt f.rd f.sa)
  | 19 => .ok (.movnS f.rt f.rd f.sa)
  | 21 => if f.rt = 0 then .ok (.recipS f.rd f.sa) else .error .reservedFieldNotZero
  | 22 => if f.rt = 0 then .ok (.rsqrtS f.rd f.sa) else .error .reservedFieldNotZero
  | 33 => if f.rt = 0 then .ok (.cvtDS f.rd f.sa) else .error .reservedFieldNotZero
  | 36 => if f.rt = 0 then .ok (.cvtWS f.rd f.sa) else .error .reservedFieldNotZero
  | 37 => if f.rt = 0 then .ok (.cvtLS f.rd f.sa) else .error .reservedFieldNotZero
  | 48 => if f.sa.extractLsb' 0 2 = 0 then .ok (.cFS f.rt f.rd (f.sa.extractLsb' 2 3)) else .error .reservedFieldNotZero
  | 49 => if f.sa.extractLsb' 0 2 = 0 then .ok (.cUnS f.rt f.rd (f.sa.extractLsb' 2 3)) else .error .reservedFieldNotZero
  | 50 => if f.sa.extractLsb' 0 2 = 0 then .ok (.cEqS f.rt f.rd (f.sa.extractLsb' 2 3)) else .error .reservedFieldNotZero
  | 51 => if f.sa.extractLsb' 0 2 = 0 then .ok (.cUeqS f.rt f.rd (f.sa.extractLsb' 2 3)) else .error .reservedFieldNotZero
  | 52 => if f.sa.extractLsb' 0 2 = 0 then .ok (.cOltS f.rt f.rd (f.sa.extractLsb' 2 3)) else .error .reservedFieldNotZero
  | 53 => if f.sa.extractLsb' 0 2 = 0 then .ok (.cUltS f.rt f.rd (f.sa.extractLsb' 2 3)) else .error .reservedFieldNotZero
  | 54 => if f.sa.extractLsb' 0 2 = 0 then .ok (.cOleS f.rt f.rd (f.sa.extractLsb' 2 3)) else .error .reservedFieldNotZero
  | 55 => if f.sa.extractLsb' 0 2 = 0 then .ok (.cUleS f.rt f.rd (f.sa.extractLsb' 2 3)) else .error .reservedFieldNotZero
  | 56 => if f.sa.extractLsb' 0 2 = 0 then .ok (.cSfS f.rt f.rd (f.sa.extractLsb' 2 3)) else .error .reservedFieldNotZero
  | 57 => if f.sa.extractLsb' 0 2 = 0 then .ok (.cNgleS f.rt f.rd (f.sa.extractLsb' 2 3)) else .error .reservedFieldNotZero
  | 58 => if f.sa.extractLsb' 0 2 = 0 then .ok (.cSeqS f.rt f.rd (f.sa.extractLsb' 2 3)) else .error .reservedFieldNotZero
  | 59 => if f.sa.extractLsb' 0 2 = 0 then .ok (.cNglS f.rt f.rd (f.sa.extractLsb' 2 3)) else .error .reservedFieldNotZero
  | 60 => if f.sa.extractLsb' 0 2 = 0 then .ok (.cLtS f.rt f.rd (f.sa.extractLsb' 2 3)) else .error .reservedFieldNotZero
  | 61 => if f.sa.extractLsb' 0 2 = 0 then .ok (.cNgeS f.rt f.rd (f.sa.extractLsb' 2 3)) else .error .reservedFieldNotZero
  | 62 => if f.sa.extractLsb' 0 2 = 0 then .ok (.cLeS f.rt f.rd (f.sa.extractLsb' 2 3)) else .error .reservedFieldNotZero
  | 63 => if f.sa.extractLsb' 0 2 = 0 then .ok (.cNgtS f.rt f.rd (f.sa.extractLsb' 2 3)) else .error .reservedFieldNotZero
  | _ => .error .reservedFunction

/-- COP1 with format D, by funct (R180). -/
def decodeFmtD (f : Fields) : Except DecodeError Instr :=
  match f.fn.toNat with
  | 0 => .ok (.addD f.rt f.rd f.sa)
  | 1 => .ok (.subD f.rt f.rd f.sa)
  | 2 => .ok (.mulD f.rt f.rd f.sa)
  | 3 => .ok (.divD f.rt f.rd f.sa)
  | 4 => if f.rt = 0 then .ok (.sqrtD f.rd f.sa) else .error .reservedFieldNotZero
  | 5 => if f.rt = 0 then .ok (.absD f.rd f.sa) else .error .reservedFieldNotZero
  | 6 => if f.rt = 0 then .ok (.movD f.rd f.sa) else .error .reservedFieldNotZero
  | 7 => if f.rt = 0 then .ok (.negD f.rd f.sa) else .error .reservedFieldNotZero
  | 8 => if f.rt = 0 then .ok (.roundLD f.rd f.sa) else .error .reservedFieldNotZero
  | 9 => if f.rt = 0 then .ok (.truncLD f.rd f.sa) else .error .reservedFieldNotZero
  | 10 => if f.rt = 0 then .ok (.ceilLD f.rd f.sa) else .error .reservedFieldNotZero
  | 11 => if f.rt = 0 then .ok (.floorLD f.rd f.sa) else .error .reservedFieldNotZero
  | 12 => if f.rt = 0 then .ok (.roundWD f.rd f.sa) else .error .reservedFieldNotZero
  | 13 => if f.rt = 0 then .ok (.truncWD f.rd f.sa) else .error .reservedFieldNotZero
  | 14 => if f.rt = 0 then .ok (.ceilWD f.rd f.sa) else .error .reservedFieldNotZero
  | 15 => if f.rt = 0 then .ok (.floorWD f.rd f.sa) else .error .reservedFieldNotZero
  | 17 => if f.rt.extractLsb' 0 2 = 0 then .ok (.movfD (f.rt.extractLsb' 2 3) f.rd f.sa)
      else if f.rt.extractLsb' 0 2 = 1 then .ok (.movtD (f.rt.extractLsb' 2 3) f.rd f.sa) else .error .reservedFieldNotZero
  | 18 => .ok (.movzD f.rt f.rd f.sa)
  | 19 => .ok (.movnD f.rt f.rd f.sa)
  | 21 => if f.rt = 0 then .ok (.recipD f.rd f.sa) else .error .reservedFieldNotZero
  | 22 => if f.rt = 0 then .ok (.rsqrtD f.rd f.sa) else .error .reservedFieldNotZero
  | 32 => if f.rt = 0 then .ok (.cvtSD f.rd f.sa) else .error .reservedFieldNotZero
  | 36 => if f.rt = 0 then .ok (.cvtWD f.rd f.sa) else .error .reservedFieldNotZero
  | 37 => if f.rt = 0 then .ok (.cvtLD f.rd f.sa) else .error .reservedFieldNotZero
  | 48 => if f.sa.extractLsb' 0 2 = 0 then .ok (.cFD f.rt f.rd (f.sa.extractLsb' 2 3)) else .error .reservedFieldNotZero
  | 49 => if f.sa.extractLsb' 0 2 = 0 then .ok (.cUnD f.rt f.rd (f.sa.extractLsb' 2 3)) else .error .reservedFieldNotZero
  | 50 => if f.sa.extractLsb' 0 2 = 0 then .ok (.cEqD f.rt f.rd (f.sa.extractLsb' 2 3)) else .error .reservedFieldNotZero
  | 51 => if f.sa.extractLsb' 0 2 = 0 then .ok (.cUeqD f.rt f.rd (f.sa.extractLsb' 2 3)) else .error .reservedFieldNotZero
  | 52 => if f.sa.extractLsb' 0 2 = 0 then .ok (.cOltD f.rt f.rd (f.sa.extractLsb' 2 3)) else .error .reservedFieldNotZero
  | 53 => if f.sa.extractLsb' 0 2 = 0 then .ok (.cUltD f.rt f.rd (f.sa.extractLsb' 2 3)) else .error .reservedFieldNotZero
  | 54 => if f.sa.extractLsb' 0 2 = 0 then .ok (.cOleD f.rt f.rd (f.sa.extractLsb' 2 3)) else .error .reservedFieldNotZero
  | 55 => if f.sa.extractLsb' 0 2 = 0 then .ok (.cUleD f.rt f.rd (f.sa.extractLsb' 2 3)) else .error .reservedFieldNotZero
  | 56 => if f.sa.extractLsb' 0 2 = 0 then .ok (.cSfD f.rt f.rd (f.sa.extractLsb' 2 3)) else .error .reservedFieldNotZero
  | 57 => if f.sa.extractLsb' 0 2 = 0 then .ok (.cNgleD f.rt f.rd (f.sa.extractLsb' 2 3)) else .error .reservedFieldNotZero
  | 58 => if f.sa.extractLsb' 0 2 = 0 then .ok (.cSeqD f.rt f.rd (f.sa.extractLsb' 2 3)) else .error .reservedFieldNotZero
  | 59 => if f.sa.extractLsb' 0 2 = 0 then .ok (.cNglD f.rt f.rd (f.sa.extractLsb' 2 3)) else .error .reservedFieldNotZero
  | 60 => if f.sa.extractLsb' 0 2 = 0 then .ok (.cLtD f.rt f.rd (f.sa.extractLsb' 2 3)) else .error .reservedFieldNotZero
  | 61 => if f.sa.extractLsb' 0 2 = 0 then .ok (.cNgeD f.rt f.rd (f.sa.extractLsb' 2 3)) else .error .reservedFieldNotZero
  | 62 => if f.sa.extractLsb' 0 2 = 0 then .ok (.cLeD f.rt f.rd (f.sa.extractLsb' 2 3)) else .error .reservedFieldNotZero
  | 63 => if f.sa.extractLsb' 0 2 = 0 then .ok (.cNgtD f.rt f.rd (f.sa.extractLsb' 2 3)) else .error .reservedFieldNotZero
  | _ => .error .reservedFunction

/-- COP1 with format W, by funct (R180). -/
def decodeFmtW (f : Fields) : Except DecodeError Instr :=
  match f.fn.toNat with
  | 32 => if f.rt = 0 then .ok (.cvtSW f.rd f.sa) else .error .reservedFieldNotZero
  | 33 => if f.rt = 0 then .ok (.cvtDW f.rd f.sa) else .error .reservedFieldNotZero
  | _ => .error .reservedFunction

/-- COP1 with format L, by funct (R180). -/
def decodeFmtL (f : Fields) : Except DecodeError Instr :=
  match f.fn.toNat with
  | 32 => if f.rt = 0 then .ok (.cvtSL f.rd f.sa) else .error .reservedFieldNotZero
  | 33 => if f.rt = 0 then .ok (.cvtDL f.rd f.sa) else .error .reservedFieldNotZero
  | _ => .error .reservedFunction

/-- COP1 branches on a condition code, by nd and tf (R179). -/
def decodeBc1 (f : Fields) : Except DecodeError Instr :=
  match (f.rt.extractLsb' 0 2).toNat with
  | 0 => .ok (.bc1f (f.rt.extractLsb' 2 3) (f.rd ++ f.sa ++ f.fn))
  | 1 => .ok (.bc1t (f.rt.extractLsb' 2 3) (f.rd ++ f.sa ++ f.fn))
  | 2 => .ok (.bc1fl (f.rt.extractLsb' 2 3) (f.rd ++ f.sa ++ f.fn))
  | 3 => .ok (.bc1tl (f.rt.extractLsb' 2 3) (f.rd ++ f.sa ++ f.fn))
  | _ => .error .reservedFunction

/-- COP1, by rs (R179). -/
def decodeCop1 (f : Fields) : Except DecodeError Instr :=
  match f.rs.toNat with
  | 0 => if f.sa = 0 ∧ f.fn = 0 then .ok (.mfc1 f.rt f.rd) else .error .reservedFieldNotZero
  | 1 => if f.sa = 0 ∧ f.fn = 0 then .ok (.dmfc1 f.rt f.rd) else .error .reservedFieldNotZero
  | 2 => if f.sa = 0 ∧ f.fn = 0 then .ok (.cfc1 f.rt f.rd) else .error .reservedFieldNotZero
  | 4 => if f.sa = 0 ∧ f.fn = 0 then .ok (.mtc1 f.rt f.rd) else .error .reservedFieldNotZero
  | 5 => if f.sa = 0 ∧ f.fn = 0 then .ok (.dmtc1 f.rt f.rd) else .error .reservedFieldNotZero
  | 6 => if f.sa = 0 ∧ f.fn = 0 then .ok (.ctc1 f.rt f.rd) else .error .reservedFieldNotZero
  | 8 => decodeBc1 f
  | 16 => decodeFmtS f
  | 17 => decodeFmtD f
  | 20 => decodeFmtW f
  | 21 => decodeFmtL f
  | _ => .error .reservedFunction

/-- COP1X, by funct (R181). -/
def decodeCop1x (f : Fields) : Except DecodeError Instr :=
  match f.fn.toNat with
  | 0 => if f.rd = 0 then .ok (.lwxc1 f.rs f.rt f.sa) else .error .reservedFieldNotZero
  | 1 => if f.rd = 0 then .ok (.ldxc1 f.rs f.rt f.sa) else .error .reservedFieldNotZero
  | 8 => if f.sa = 0 then .ok (.swxc1 f.rs f.rt f.rd) else .error .reservedFieldNotZero
  | 9 => if f.sa = 0 then .ok (.sdxc1 f.rs f.rt f.rd) else .error .reservedFieldNotZero
  | 15 => if f.sa = 0 then .ok (.pfetch f.rs f.rt f.rd) else .error .reservedFieldNotZero
  | 32 => .ok (.maddS f.rs f.rt f.rd f.sa)
  | 33 => .ok (.maddD f.rs f.rt f.rd f.sa)
  | 40 => .ok (.msubS f.rs f.rt f.rd f.sa)
  | 41 => .ok (.msubD f.rs f.rt f.rd f.sa)
  | 48 => .ok (.nmaddS f.rs f.rt f.rd f.sa)
  | 49 => .ok (.nmaddD f.rs f.rt f.rd f.sa)
  | 56 => .ok (.nmsubS f.rs f.rt f.rd f.sa)
  | 57 => .ok (.nmsubD f.rs f.rt f.rd f.sa)
  | _ => .error .reservedFunction

/-- The pieces of a word, decoded by major opcode (R174, R175). -/
def decodeFields (f : Fields) : Except DecodeError Instr :=
  match f.op.toNat with
  | 0 => decodeSpecial f
  | 1 => decodeRegimm f
  | 2 => .ok (.j (f.rs ++ f.rt ++ f.rd ++ f.sa ++ f.fn))
  | 3 => .ok (.jal (f.rs ++ f.rt ++ f.rd ++ f.sa ++ f.fn))
  | 4 => .ok (.beq f.rs f.rt (f.rd ++ f.sa ++ f.fn))
  | 5 => .ok (.bne f.rs f.rt (f.rd ++ f.sa ++ f.fn))
  | 6 => if f.rt = 0 then .ok (.blez f.rs (f.rd ++ f.sa ++ f.fn)) else .error .reservedFieldNotZero
  | 7 => if f.rt = 0 then .ok (.bgtz f.rs (f.rd ++ f.sa ++ f.fn)) else .error .reservedFieldNotZero
  | 8 => .ok (.addi f.rs f.rt (f.rd ++ f.sa ++ f.fn))
  | 9 => .ok (.addiu f.rs f.rt (f.rd ++ f.sa ++ f.fn))
  | 10 => .ok (.slti f.rs f.rt (f.rd ++ f.sa ++ f.fn))
  | 11 => .ok (.sltiu f.rs f.rt (f.rd ++ f.sa ++ f.fn))
  | 12 => .ok (.andi f.rs f.rt (f.rd ++ f.sa ++ f.fn))
  | 13 => .ok (.ori f.rs f.rt (f.rd ++ f.sa ++ f.fn))
  | 14 => .ok (.xori f.rs f.rt (f.rd ++ f.sa ++ f.fn))
  | 15 => if f.rs = 0 then .ok (.lui f.rt (f.rd ++ f.sa ++ f.fn)) else .error .reservedFieldNotZero
  | 16 => decodeCop0 f
  | 17 => decodeCop1 f
  | 19 => decodeCop1x f
  | 20 => .ok (.beql f.rs f.rt (f.rd ++ f.sa ++ f.fn))
  | 21 => .ok (.bnel f.rs f.rt (f.rd ++ f.sa ++ f.fn))
  | 22 => if f.rt = 0 then .ok (.blezl f.rs (f.rd ++ f.sa ++ f.fn)) else .error .reservedFieldNotZero
  | 23 => if f.rt = 0 then .ok (.bgtzl f.rs (f.rd ++ f.sa ++ f.fn)) else .error .reservedFieldNotZero
  | 24 => .ok (.daddi f.rs f.rt (f.rd ++ f.sa ++ f.fn))
  | 25 => .ok (.daddiu f.rs f.rt (f.rd ++ f.sa ++ f.fn))
  | 26 => .ok (.ldl f.rs f.rt (f.rd ++ f.sa ++ f.fn))
  | 27 => .ok (.ldr f.rs f.rt (f.rd ++ f.sa ++ f.fn))
  | 32 => .ok (.lb f.rs f.rt (f.rd ++ f.sa ++ f.fn))
  | 33 => .ok (.lh f.rs f.rt (f.rd ++ f.sa ++ f.fn))
  | 34 => .ok (.lwl f.rs f.rt (f.rd ++ f.sa ++ f.fn))
  | 35 => .ok (.lw f.rs f.rt (f.rd ++ f.sa ++ f.fn))
  | 36 => .ok (.lbu f.rs f.rt (f.rd ++ f.sa ++ f.fn))
  | 37 => .ok (.lhu f.rs f.rt (f.rd ++ f.sa ++ f.fn))
  | 38 => .ok (.lwr f.rs f.rt (f.rd ++ f.sa ++ f.fn))
  | 39 => .ok (.lwu f.rs f.rt (f.rd ++ f.sa ++ f.fn))
  | 40 => .ok (.sb f.rs f.rt (f.rd ++ f.sa ++ f.fn))
  | 41 => .ok (.sh f.rs f.rt (f.rd ++ f.sa ++ f.fn))
  | 42 => .ok (.swl f.rs f.rt (f.rd ++ f.sa ++ f.fn))
  | 43 => .ok (.sw f.rs f.rt (f.rd ++ f.sa ++ f.fn))
  | 44 => .ok (.sdl f.rs f.rt (f.rd ++ f.sa ++ f.fn))
  | 45 => .ok (.sdr f.rs f.rt (f.rd ++ f.sa ++ f.fn))
  | 46 => .ok (.swr f.rs f.rt (f.rd ++ f.sa ++ f.fn))
  | 48 => .ok (.ll f.rs f.rt (f.rd ++ f.sa ++ f.fn))
  | 49 => .ok (.lwc1 f.rs f.rt (f.rd ++ f.sa ++ f.fn))
  | 51 => .ok (.pref f.rs f.rt (f.rd ++ f.sa ++ f.fn))
  | 52 => .ok (.lld f.rs f.rt (f.rd ++ f.sa ++ f.fn))
  | 53 => .ok (.ldc1 f.rs f.rt (f.rd ++ f.sa ++ f.fn))
  | 55 => .ok (.ld f.rs f.rt (f.rd ++ f.sa ++ f.fn))
  | 56 => .ok (.sc f.rs f.rt (f.rd ++ f.sa ++ f.fn))
  | 57 => .ok (.swc1 f.rs f.rt (f.rd ++ f.sa ++ f.fn))
  | 60 => .ok (.scd f.rs f.rt (f.rd ++ f.sa ++ f.fn))
  | 61 => .ok (.sdc1 f.rs f.rt (f.rd ++ f.sa ++ f.fn))
  | 63 => .ok (.sd f.rs f.rt (f.rd ++ f.sa ++ f.fn))
  | _ => .error .reservedOpcode

/-- The instruction of a word (R174). -/
def decodeWord (w : IWord) : Except DecodeError Instr := decodeFields (Fields.split w)

/-- The word that four bytes hold; instructions are read big endian (R123, R170). -/
def wordOfBytes (b0 b1 b2 b3 : Byte) : IWord := b0 ++ b1 ++ b2 ++ b3

/-- The instruction at the head of a list of bytes, and the bytes after it (R170, R123). -/
def decodeBytes : List Byte → Except DecodeError (Instr × List Byte)
  | b0 :: b1 :: b2 :: b3 :: rest => (decodeWord (wordOfBytes b0 b1 b2 b3)).map (fun i => (i, rest))
  | _ => .error .tooShort

/-- The pieces of an instruction's word (R171, R175 to R182). -/
def encodeFields : Instr → Fields
  | .ssnop => ⟨0#6, 0#5, 0#5, 0#5, 1#5, 0#6⟩
  | .add rs rt rd => ⟨0#6, rs, rt, rd, 0#5, 32#6⟩
  | .addu rs rt rd => ⟨0#6, rs, rt, rd, 0#5, 33#6⟩
  | .sub rs rt rd => ⟨0#6, rs, rt, rd, 0#5, 34#6⟩
  | .subu rs rt rd => ⟨0#6, rs, rt, rd, 0#5, 35#6⟩
  | .dadd rs rt rd => ⟨0#6, rs, rt, rd, 0#5, 44#6⟩
  | .daddu rs rt rd => ⟨0#6, rs, rt, rd, 0#5, 45#6⟩
  | .dsub rs rt rd => ⟨0#6, rs, rt, rd, 0#5, 46#6⟩
  | .dsubu rs rt rd => ⟨0#6, rs, rt, rd, 0#5, 47#6⟩
  | .and rs rt rd => ⟨0#6, rs, rt, rd, 0#5, 36#6⟩
  | .or rs rt rd => ⟨0#6, rs, rt, rd, 0#5, 37#6⟩
  | .xor rs rt rd => ⟨0#6, rs, rt, rd, 0#5, 38#6⟩
  | .nor rs rt rd => ⟨0#6, rs, rt, rd, 0#5, 39#6⟩
  | .slt rs rt rd => ⟨0#6, rs, rt, rd, 0#5, 42#6⟩
  | .sltu rs rt rd => ⟨0#6, rs, rt, rd, 0#5, 43#6⟩
  | .movz rs rt rd => ⟨0#6, rs, rt, rd, 0#5, 10#6⟩
  | .movn rs rt rd => ⟨0#6, rs, rt, rd, 0#5, 11#6⟩
  | .addi rs rt imm => ⟨8#6, rs, rt, imm.extractLsb' 11 5, imm.extractLsb' 6 5, imm.extractLsb' 0 6⟩
  | .addiu rs rt imm => ⟨9#6, rs, rt, imm.extractLsb' 11 5, imm.extractLsb' 6 5, imm.extractLsb' 0 6⟩
  | .daddi rs rt imm => ⟨24#6, rs, rt, imm.extractLsb' 11 5, imm.extractLsb' 6 5, imm.extractLsb' 0 6⟩
  | .daddiu rs rt imm => ⟨25#6, rs, rt, imm.extractLsb' 11 5, imm.extractLsb' 6 5, imm.extractLsb' 0 6⟩
  | .slti rs rt imm => ⟨10#6, rs, rt, imm.extractLsb' 11 5, imm.extractLsb' 6 5, imm.extractLsb' 0 6⟩
  | .sltiu rs rt imm => ⟨11#6, rs, rt, imm.extractLsb' 11 5, imm.extractLsb' 6 5, imm.extractLsb' 0 6⟩
  | .andi rs rt imm => ⟨12#6, rs, rt, imm.extractLsb' 11 5, imm.extractLsb' 6 5, imm.extractLsb' 0 6⟩
  | .ori rs rt imm => ⟨13#6, rs, rt, imm.extractLsb' 11 5, imm.extractLsb' 6 5, imm.extractLsb' 0 6⟩
  | .xori rs rt imm => ⟨14#6, rs, rt, imm.extractLsb' 11 5, imm.extractLsb' 6 5, imm.extractLsb' 0 6⟩
  | .lui rt imm => ⟨15#6, 0#5, rt, imm.extractLsb' 11 5, imm.extractLsb' 6 5, imm.extractLsb' 0 6⟩
  | .sll rt rd sa => ⟨0#6, 0#5, rt, rd, sa, 0#6⟩
  | .srl rt rd sa => ⟨0#6, 0#5, rt, rd, sa, 2#6⟩
  | .sra rt rd sa => ⟨0#6, 0#5, rt, rd, sa, 3#6⟩
  | .dsll rt rd sa => ⟨0#6, 0#5, rt, rd, sa, 56#6⟩
  | .dsrl rt rd sa => ⟨0#6, 0#5, rt, rd, sa, 58#6⟩
  | .dsra rt rd sa => ⟨0#6, 0#5, rt, rd, sa, 59#6⟩
  | .dsll32 rt rd sa => ⟨0#6, 0#5, rt, rd, sa, 60#6⟩
  | .dsrl32 rt rd sa => ⟨0#6, 0#5, rt, rd, sa, 62#6⟩
  | .dsra32 rt rd sa => ⟨0#6, 0#5, rt, rd, sa, 63#6⟩
  | .sllv rs rt rd => ⟨0#6, rs, rt, rd, 0#5, 4#6⟩
  | .srlv rs rt rd => ⟨0#6, rs, rt, rd, 0#5, 6#6⟩
  | .srav rs rt rd => ⟨0#6, rs, rt, rd, 0#5, 7#6⟩
  | .dsllv rs rt rd => ⟨0#6, rs, rt, rd, 0#5, 20#6⟩
  | .dsrlv rs rt rd => ⟨0#6, rs, rt, rd, 0#5, 22#6⟩
  | .dsrav rs rt rd => ⟨0#6, rs, rt, rd, 0#5, 23#6⟩
  | .movf rs cc rd => ⟨0#6, rs, cc ++ 0#2, rd, 0#5, 1#6⟩
  | .movt rs cc rd => ⟨0#6, rs, cc ++ 1#2, rd, 0#5, 1#6⟩
  | .mult rs rt => ⟨0#6, rs, rt, 0#5, 0#5, 24#6⟩
  | .multu rs rt => ⟨0#6, rs, rt, 0#5, 0#5, 25#6⟩
  | .div rs rt => ⟨0#6, rs, rt, 0#5, 0#5, 26#6⟩
  | .divu rs rt => ⟨0#6, rs, rt, 0#5, 0#5, 27#6⟩
  | .dmult rs rt => ⟨0#6, rs, rt, 0#5, 0#5, 28#6⟩
  | .dmultu rs rt => ⟨0#6, rs, rt, 0#5, 0#5, 29#6⟩
  | .ddiv rs rt => ⟨0#6, rs, rt, 0#5, 0#5, 30#6⟩
  | .ddivu rs rt => ⟨0#6, rs, rt, 0#5, 0#5, 31#6⟩
  | .mfhi rd => ⟨0#6, 0#5, 0#5, rd, 0#5, 16#6⟩
  | .mthi rs => ⟨0#6, rs, 0#5, 0#5, 0#5, 17#6⟩
  | .mflo rd => ⟨0#6, 0#5, 0#5, rd, 0#5, 18#6⟩
  | .mtlo rs => ⟨0#6, rs, 0#5, 0#5, 0#5, 19#6⟩
  | .lb base rt offset => ⟨32#6, base, rt, offset.extractLsb' 11 5, offset.extractLsb' 6 5, offset.extractLsb' 0 6⟩
  | .lbu base rt offset => ⟨36#6, base, rt, offset.extractLsb' 11 5, offset.extractLsb' 6 5, offset.extractLsb' 0 6⟩
  | .lh base rt offset => ⟨33#6, base, rt, offset.extractLsb' 11 5, offset.extractLsb' 6 5, offset.extractLsb' 0 6⟩
  | .lhu base rt offset => ⟨37#6, base, rt, offset.extractLsb' 11 5, offset.extractLsb' 6 5, offset.extractLsb' 0 6⟩
  | .lw base rt offset => ⟨35#6, base, rt, offset.extractLsb' 11 5, offset.extractLsb' 6 5, offset.extractLsb' 0 6⟩
  | .lwu base rt offset => ⟨39#6, base, rt, offset.extractLsb' 11 5, offset.extractLsb' 6 5, offset.extractLsb' 0 6⟩
  | .ld base rt offset => ⟨55#6, base, rt, offset.extractLsb' 11 5, offset.extractLsb' 6 5, offset.extractLsb' 0 6⟩
  | .sb base rt offset => ⟨40#6, base, rt, offset.extractLsb' 11 5, offset.extractLsb' 6 5, offset.extractLsb' 0 6⟩
  | .sh base rt offset => ⟨41#6, base, rt, offset.extractLsb' 11 5, offset.extractLsb' 6 5, offset.extractLsb' 0 6⟩
  | .sw base rt offset => ⟨43#6, base, rt, offset.extractLsb' 11 5, offset.extractLsb' 6 5, offset.extractLsb' 0 6⟩
  | .sd base rt offset => ⟨63#6, base, rt, offset.extractLsb' 11 5, offset.extractLsb' 6 5, offset.extractLsb' 0 6⟩
  | .lwl base rt offset => ⟨34#6, base, rt, offset.extractLsb' 11 5, offset.extractLsb' 6 5, offset.extractLsb' 0 6⟩
  | .lwr base rt offset => ⟨38#6, base, rt, offset.extractLsb' 11 5, offset.extractLsb' 6 5, offset.extractLsb' 0 6⟩
  | .swl base rt offset => ⟨42#6, base, rt, offset.extractLsb' 11 5, offset.extractLsb' 6 5, offset.extractLsb' 0 6⟩
  | .swr base rt offset => ⟨46#6, base, rt, offset.extractLsb' 11 5, offset.extractLsb' 6 5, offset.extractLsb' 0 6⟩
  | .ldl base rt offset => ⟨26#6, base, rt, offset.extractLsb' 11 5, offset.extractLsb' 6 5, offset.extractLsb' 0 6⟩
  | .ldr base rt offset => ⟨27#6, base, rt, offset.extractLsb' 11 5, offset.extractLsb' 6 5, offset.extractLsb' 0 6⟩
  | .sdl base rt offset => ⟨44#6, base, rt, offset.extractLsb' 11 5, offset.extractLsb' 6 5, offset.extractLsb' 0 6⟩
  | .sdr base rt offset => ⟨45#6, base, rt, offset.extractLsb' 11 5, offset.extractLsb' 6 5, offset.extractLsb' 0 6⟩
  | .ll base rt offset => ⟨48#6, base, rt, offset.extractLsb' 11 5, offset.extractLsb' 6 5, offset.extractLsb' 0 6⟩
  | .lld base rt offset => ⟨52#6, base, rt, offset.extractLsb' 11 5, offset.extractLsb' 6 5, offset.extractLsb' 0 6⟩
  | .sc base rt offset => ⟨56#6, base, rt, offset.extractLsb' 11 5, offset.extractLsb' 6 5, offset.extractLsb' 0 6⟩
  | .scd base rt offset => ⟨60#6, base, rt, offset.extractLsb' 11 5, offset.extractLsb' 6 5, offset.extractLsb' 0 6⟩
  | .sync stype => ⟨0#6, 0#5, 0#5, 0#5, stype, 15#6⟩
  | .pref base hint offset => ⟨51#6, base, hint, offset.extractLsb' 11 5, offset.extractLsb' 6 5, offset.extractLsb' 0 6⟩
  | .j target => ⟨2#6, target.extractLsb' 21 5, target.extractLsb' 16 5, target.extractLsb' 11 5, target.extractLsb' 6 5, target.extractLsb' 0 6⟩
  | .jal target => ⟨3#6, target.extractLsb' 21 5, target.extractLsb' 16 5, target.extractLsb' 11 5, target.extractLsb' 6 5, target.extractLsb' 0 6⟩
  | .jr rs => ⟨0#6, rs, 0#5, 0#5, 0#5, 8#6⟩
  | .jalr rs rd => ⟨0#6, rs, 0#5, rd, 0#5, 9#6⟩
  | .beq rs rt offset => ⟨4#6, rs, rt, offset.extractLsb' 11 5, offset.extractLsb' 6 5, offset.extractLsb' 0 6⟩
  | .bne rs rt offset => ⟨5#6, rs, rt, offset.extractLsb' 11 5, offset.extractLsb' 6 5, offset.extractLsb' 0 6⟩
  | .beql rs rt offset => ⟨20#6, rs, rt, offset.extractLsb' 11 5, offset.extractLsb' 6 5, offset.extractLsb' 0 6⟩
  | .bnel rs rt offset => ⟨21#6, rs, rt, offset.extractLsb' 11 5, offset.extractLsb' 6 5, offset.extractLsb' 0 6⟩
  | .blez rs offset => ⟨6#6, rs, 0#5, offset.extractLsb' 11 5, offset.extractLsb' 6 5, offset.extractLsb' 0 6⟩
  | .bgtz rs offset => ⟨7#6, rs, 0#5, offset.extractLsb' 11 5, offset.extractLsb' 6 5, offset.extractLsb' 0 6⟩
  | .blezl rs offset => ⟨22#6, rs, 0#5, offset.extractLsb' 11 5, offset.extractLsb' 6 5, offset.extractLsb' 0 6⟩
  | .bgtzl rs offset => ⟨23#6, rs, 0#5, offset.extractLsb' 11 5, offset.extractLsb' 6 5, offset.extractLsb' 0 6⟩
  | .bltz rs offset => ⟨1#6, rs, 0#5, offset.extractLsb' 11 5, offset.extractLsb' 6 5, offset.extractLsb' 0 6⟩
  | .bgez rs offset => ⟨1#6, rs, 1#5, offset.extractLsb' 11 5, offset.extractLsb' 6 5, offset.extractLsb' 0 6⟩
  | .bltzl rs offset => ⟨1#6, rs, 2#5, offset.extractLsb' 11 5, offset.extractLsb' 6 5, offset.extractLsb' 0 6⟩
  | .bgezl rs offset => ⟨1#6, rs, 3#5, offset.extractLsb' 11 5, offset.extractLsb' 6 5, offset.extractLsb' 0 6⟩
  | .bltzal rs offset => ⟨1#6, rs, 16#5, offset.extractLsb' 11 5, offset.extractLsb' 6 5, offset.extractLsb' 0 6⟩
  | .bgezal rs offset => ⟨1#6, rs, 17#5, offset.extractLsb' 11 5, offset.extractLsb' 6 5, offset.extractLsb' 0 6⟩
  | .bltzall rs offset => ⟨1#6, rs, 18#5, offset.extractLsb' 11 5, offset.extractLsb' 6 5, offset.extractLsb' 0 6⟩
  | .bgezall rs offset => ⟨1#6, rs, 19#5, offset.extractLsb' 11 5, offset.extractLsb' 6 5, offset.extractLsb' 0 6⟩
  | .tge rs rt code => ⟨0#6, rs, rt, code.extractLsb' 5 5, code.extractLsb' 0 5, 48#6⟩
  | .tgeu rs rt code => ⟨0#6, rs, rt, code.extractLsb' 5 5, code.extractLsb' 0 5, 49#6⟩
  | .tlt rs rt code => ⟨0#6, rs, rt, code.extractLsb' 5 5, code.extractLsb' 0 5, 50#6⟩
  | .tltu rs rt code => ⟨0#6, rs, rt, code.extractLsb' 5 5, code.extractLsb' 0 5, 51#6⟩
  | .teq rs rt code => ⟨0#6, rs, rt, code.extractLsb' 5 5, code.extractLsb' 0 5, 52#6⟩
  | .tne rs rt code => ⟨0#6, rs, rt, code.extractLsb' 5 5, code.extractLsb' 0 5, 54#6⟩
  | .tgei rs imm => ⟨1#6, rs, 8#5, imm.extractLsb' 11 5, imm.extractLsb' 6 5, imm.extractLsb' 0 6⟩
  | .tgeiu rs imm => ⟨1#6, rs, 9#5, imm.extractLsb' 11 5, imm.extractLsb' 6 5, imm.extractLsb' 0 6⟩
  | .tlti rs imm => ⟨1#6, rs, 10#5, imm.extractLsb' 11 5, imm.extractLsb' 6 5, imm.extractLsb' 0 6⟩
  | .tltiu rs imm => ⟨1#6, rs, 11#5, imm.extractLsb' 11 5, imm.extractLsb' 6 5, imm.extractLsb' 0 6⟩
  | .teqi rs imm => ⟨1#6, rs, 12#5, imm.extractLsb' 11 5, imm.extractLsb' 6 5, imm.extractLsb' 0 6⟩
  | .tnei rs imm => ⟨1#6, rs, 14#5, imm.extractLsb' 11 5, imm.extractLsb' 6 5, imm.extractLsb' 0 6⟩
  | .syscall code => ⟨0#6, code.extractLsb' 15 5, code.extractLsb' 10 5, code.extractLsb' 5 5, code.extractLsb' 0 5, 12#6⟩
  | .brk code => ⟨0#6, code.extractLsb' 15 5, code.extractLsb' 10 5, code.extractLsb' 5 5, code.extractLsb' 0 5, 13#6⟩
  | .addS ft fs fd => ⟨17#6, 16#5, ft, fs, fd, 0#6⟩
  | .addD ft fs fd => ⟨17#6, 17#5, ft, fs, fd, 0#6⟩
  | .subS ft fs fd => ⟨17#6, 16#5, ft, fs, fd, 1#6⟩
  | .subD ft fs fd => ⟨17#6, 17#5, ft, fs, fd, 1#6⟩
  | .mulS ft fs fd => ⟨17#6, 16#5, ft, fs, fd, 2#6⟩
  | .mulD ft fs fd => ⟨17#6, 17#5, ft, fs, fd, 2#6⟩
  | .divS ft fs fd => ⟨17#6, 16#5, ft, fs, fd, 3#6⟩
  | .divD ft fs fd => ⟨17#6, 17#5, ft, fs, fd, 3#6⟩
  | .sqrtS fs fd => ⟨17#6, 16#5, 0#5, fs, fd, 4#6⟩
  | .sqrtD fs fd => ⟨17#6, 17#5, 0#5, fs, fd, 4#6⟩
  | .absS fs fd => ⟨17#6, 16#5, 0#5, fs, fd, 5#6⟩
  | .absD fs fd => ⟨17#6, 17#5, 0#5, fs, fd, 5#6⟩
  | .negS fs fd => ⟨17#6, 16#5, 0#5, fs, fd, 7#6⟩
  | .negD fs fd => ⟨17#6, 17#5, 0#5, fs, fd, 7#6⟩
  | .recipS fs fd => ⟨17#6, 16#5, 0#5, fs, fd, 21#6⟩
  | .recipD fs fd => ⟨17#6, 17#5, 0#5, fs, fd, 21#6⟩
  | .rsqrtS fs fd => ⟨17#6, 16#5, 0#5, fs, fd, 22#6⟩
  | .rsqrtD fs fd => ⟨17#6, 17#5, 0#5, fs, fd, 22#6⟩
  | .roundLS fs fd => ⟨17#6, 16#5, 0#5, fs, fd, 8#6⟩
  | .roundLD fs fd => ⟨17#6, 17#5, 0#5, fs, fd, 8#6⟩
  | .truncLS fs fd => ⟨17#6, 16#5, 0#5, fs, fd, 9#6⟩
  | .truncLD fs fd => ⟨17#6, 17#5, 0#5, fs, fd, 9#6⟩
  | .ceilLS fs fd => ⟨17#6, 16#5, 0#5, fs, fd, 10#6⟩
  | .ceilLD fs fd => ⟨17#6, 17#5, 0#5, fs, fd, 10#6⟩
  | .floorLS fs fd => ⟨17#6, 16#5, 0#5, fs, fd, 11#6⟩
  | .floorLD fs fd => ⟨17#6, 17#5, 0#5, fs, fd, 11#6⟩
  | .roundWS fs fd => ⟨17#6, 16#5, 0#5, fs, fd, 12#6⟩
  | .roundWD fs fd => ⟨17#6, 17#5, 0#5, fs, fd, 12#6⟩
  | .truncWS fs fd => ⟨17#6, 16#5, 0#5, fs, fd, 13#6⟩
  | .truncWD fs fd => ⟨17#6, 17#5, 0#5, fs, fd, 13#6⟩
  | .ceilWS fs fd => ⟨17#6, 16#5, 0#5, fs, fd, 14#6⟩
  | .ceilWD fs fd => ⟨17#6, 17#5, 0#5, fs, fd, 14#6⟩
  | .floorWS fs fd => ⟨17#6, 16#5, 0#5, fs, fd, 15#6⟩
  | .floorWD fs fd => ⟨17#6, 17#5, 0#5, fs, fd, 15#6⟩
  | .cvtWS fs fd => ⟨17#6, 16#5, 0#5, fs, fd, 36#6⟩
  | .cvtWD fs fd => ⟨17#6, 17#5, 0#5, fs, fd, 36#6⟩
  | .cvtLS fs fd => ⟨17#6, 16#5, 0#5, fs, fd, 37#6⟩
  | .cvtLD fs fd => ⟨17#6, 17#5, 0#5, fs, fd, 37#6⟩
  | .cvtSD fs fd => ⟨17#6, 17#5, 0#5, fs, fd, 32#6⟩
  | .cvtSW fs fd => ⟨17#6, 20#5, 0#5, fs, fd, 32#6⟩
  | .cvtSL fs fd => ⟨17#6, 21#5, 0#5, fs, fd, 32#6⟩
  | .cvtDS fs fd => ⟨17#6, 16#5, 0#5, fs, fd, 33#6⟩
  | .cvtDW fs fd => ⟨17#6, 20#5, 0#5, fs, fd, 33#6⟩
  | .cvtDL fs fd => ⟨17#6, 21#5, 0#5, fs, fd, 33#6⟩
  | .maddS fr ft fs fd => ⟨19#6, fr, ft, fs, fd, 32#6⟩
  | .maddD fr ft fs fd => ⟨19#6, fr, ft, fs, fd, 33#6⟩
  | .msubS fr ft fs fd => ⟨19#6, fr, ft, fs, fd, 40#6⟩
  | .msubD fr ft fs fd => ⟨19#6, fr, ft, fs, fd, 41#6⟩
  | .nmaddS fr ft fs fd => ⟨19#6, fr, ft, fs, fd, 48#6⟩
  | .nmaddD fr ft fs fd => ⟨19#6, fr, ft, fs, fd, 49#6⟩
  | .nmsubS fr ft fs fd => ⟨19#6, fr, ft, fs, fd, 56#6⟩
  | .nmsubD fr ft fs fd => ⟨19#6, fr, ft, fs, fd, 57#6⟩
  | .cFS ft fs cc => ⟨17#6, 16#5, ft, fs, cc ++ 0#2, 48#6⟩
  | .cUnS ft fs cc => ⟨17#6, 16#5, ft, fs, cc ++ 0#2, 49#6⟩
  | .cEqS ft fs cc => ⟨17#6, 16#5, ft, fs, cc ++ 0#2, 50#6⟩
  | .cUeqS ft fs cc => ⟨17#6, 16#5, ft, fs, cc ++ 0#2, 51#6⟩
  | .cOltS ft fs cc => ⟨17#6, 16#5, ft, fs, cc ++ 0#2, 52#6⟩
  | .cUltS ft fs cc => ⟨17#6, 16#5, ft, fs, cc ++ 0#2, 53#6⟩
  | .cOleS ft fs cc => ⟨17#6, 16#5, ft, fs, cc ++ 0#2, 54#6⟩
  | .cUleS ft fs cc => ⟨17#6, 16#5, ft, fs, cc ++ 0#2, 55#6⟩
  | .cSfS ft fs cc => ⟨17#6, 16#5, ft, fs, cc ++ 0#2, 56#6⟩
  | .cNgleS ft fs cc => ⟨17#6, 16#5, ft, fs, cc ++ 0#2, 57#6⟩
  | .cSeqS ft fs cc => ⟨17#6, 16#5, ft, fs, cc ++ 0#2, 58#6⟩
  | .cNglS ft fs cc => ⟨17#6, 16#5, ft, fs, cc ++ 0#2, 59#6⟩
  | .cLtS ft fs cc => ⟨17#6, 16#5, ft, fs, cc ++ 0#2, 60#6⟩
  | .cNgeS ft fs cc => ⟨17#6, 16#5, ft, fs, cc ++ 0#2, 61#6⟩
  | .cLeS ft fs cc => ⟨17#6, 16#5, ft, fs, cc ++ 0#2, 62#6⟩
  | .cNgtS ft fs cc => ⟨17#6, 16#5, ft, fs, cc ++ 0#2, 63#6⟩
  | .cFD ft fs cc => ⟨17#6, 17#5, ft, fs, cc ++ 0#2, 48#6⟩
  | .cUnD ft fs cc => ⟨17#6, 17#5, ft, fs, cc ++ 0#2, 49#6⟩
  | .cEqD ft fs cc => ⟨17#6, 17#5, ft, fs, cc ++ 0#2, 50#6⟩
  | .cUeqD ft fs cc => ⟨17#6, 17#5, ft, fs, cc ++ 0#2, 51#6⟩
  | .cOltD ft fs cc => ⟨17#6, 17#5, ft, fs, cc ++ 0#2, 52#6⟩
  | .cUltD ft fs cc => ⟨17#6, 17#5, ft, fs, cc ++ 0#2, 53#6⟩
  | .cOleD ft fs cc => ⟨17#6, 17#5, ft, fs, cc ++ 0#2, 54#6⟩
  | .cUleD ft fs cc => ⟨17#6, 17#5, ft, fs, cc ++ 0#2, 55#6⟩
  | .cSfD ft fs cc => ⟨17#6, 17#5, ft, fs, cc ++ 0#2, 56#6⟩
  | .cNgleD ft fs cc => ⟨17#6, 17#5, ft, fs, cc ++ 0#2, 57#6⟩
  | .cSeqD ft fs cc => ⟨17#6, 17#5, ft, fs, cc ++ 0#2, 58#6⟩
  | .cNglD ft fs cc => ⟨17#6, 17#5, ft, fs, cc ++ 0#2, 59#6⟩
  | .cLtD ft fs cc => ⟨17#6, 17#5, ft, fs, cc ++ 0#2, 60#6⟩
  | .cNgeD ft fs cc => ⟨17#6, 17#5, ft, fs, cc ++ 0#2, 61#6⟩
  | .cLeD ft fs cc => ⟨17#6, 17#5, ft, fs, cc ++ 0#2, 62#6⟩
  | .cNgtD ft fs cc => ⟨17#6, 17#5, ft, fs, cc ++ 0#2, 63#6⟩
  | .lwc1 base ft offset => ⟨49#6, base, ft, offset.extractLsb' 11 5, offset.extractLsb' 6 5, offset.extractLsb' 0 6⟩
  | .ldc1 base ft offset => ⟨53#6, base, ft, offset.extractLsb' 11 5, offset.extractLsb' 6 5, offset.extractLsb' 0 6⟩
  | .swc1 base ft offset => ⟨57#6, base, ft, offset.extractLsb' 11 5, offset.extractLsb' 6 5, offset.extractLsb' 0 6⟩
  | .sdc1 base ft offset => ⟨61#6, base, ft, offset.extractLsb' 11 5, offset.extractLsb' 6 5, offset.extractLsb' 0 6⟩
  | .lwxc1 base index fd => ⟨19#6, base, index, 0#5, fd, 0#6⟩
  | .ldxc1 base index fd => ⟨19#6, base, index, 0#5, fd, 1#6⟩
  | .swxc1 base index fs => ⟨19#6, base, index, fs, 0#5, 8#6⟩
  | .sdxc1 base index fs => ⟨19#6, base, index, fs, 0#5, 9#6⟩
  | .pfetch base index hint => ⟨19#6, base, index, hint, 0#5, 15#6⟩
  | .mfc1 rt fs => ⟨17#6, 0#5, rt, fs, 0#5, 0#6⟩
  | .dmfc1 rt fs => ⟨17#6, 1#5, rt, fs, 0#5, 0#6⟩
  | .cfc1 rt fs => ⟨17#6, 2#5, rt, fs, 0#5, 0#6⟩
  | .mtc1 rt fs => ⟨17#6, 4#5, rt, fs, 0#5, 0#6⟩
  | .dmtc1 rt fs => ⟨17#6, 5#5, rt, fs, 0#5, 0#6⟩
  | .ctc1 rt fs => ⟨17#6, 6#5, rt, fs, 0#5, 0#6⟩
  | .bc1f cc offset => ⟨17#6, 8#5, cc ++ 0#2, offset.extractLsb' 11 5, offset.extractLsb' 6 5, offset.extractLsb' 0 6⟩
  | .bc1t cc offset => ⟨17#6, 8#5, cc ++ 1#2, offset.extractLsb' 11 5, offset.extractLsb' 6 5, offset.extractLsb' 0 6⟩
  | .bc1fl cc offset => ⟨17#6, 8#5, cc ++ 2#2, offset.extractLsb' 11 5, offset.extractLsb' 6 5, offset.extractLsb' 0 6⟩
  | .bc1tl cc offset => ⟨17#6, 8#5, cc ++ 3#2, offset.extractLsb' 11 5, offset.extractLsb' 6 5, offset.extractLsb' 0 6⟩
  | .movS fs fd => ⟨17#6, 16#5, 0#5, fs, fd, 6#6⟩
  | .movfS cc fs fd => ⟨17#6, 16#5, cc ++ 0#2, fs, fd, 17#6⟩
  | .movtS cc fs fd => ⟨17#6, 16#5, cc ++ 1#2, fs, fd, 17#6⟩
  | .movzS rt fs fd => ⟨17#6, 16#5, rt, fs, fd, 18#6⟩
  | .movnS rt fs fd => ⟨17#6, 16#5, rt, fs, fd, 19#6⟩
  | .movD fs fd => ⟨17#6, 17#5, 0#5, fs, fd, 6#6⟩
  | .movfD cc fs fd => ⟨17#6, 17#5, cc ++ 0#2, fs, fd, 17#6⟩
  | .movtD cc fs fd => ⟨17#6, 17#5, cc ++ 1#2, fs, fd, 17#6⟩
  | .movzD rt fs fd => ⟨17#6, 17#5, rt, fs, fd, 18#6⟩
  | .movnD rt fs fd => ⟨17#6, 17#5, rt, fs, fd, 19#6⟩
  | .dmfc0 rt rd => ⟨16#6, 1#5, rt, rd, 0#5, 0#6⟩
  | .dmtc0 rt rd => ⟨16#6, 5#5, rt, rd, 0#5, 0#6⟩
  | .tlbr => ⟨16#6, 16#5, 0#5, 0#5, 0#5, 1#6⟩
  | .tlbp => ⟨16#6, 16#5, 0#5, 0#5, 0#5, 8#6⟩
  | .eret => ⟨16#6, 16#5, 0#5, 0#5, 0#5, 24#6⟩
  | .tlbw => ⟨16#6, 16#5, 0#5, 0#5, 0#5, Config.encTlbw⟩
  | .dctr => ⟨16#6, 16#5, 0#5, 0#5, 0#5, Config.encDctr⟩
  | .dctw => ⟨16#6, 16#5, 0#5, 0#5, 0#5, Config.encDctw⟩

/-- The word of an instruction. -/
def encode (i : Instr) : IWord := (encodeFields i).join

/-- The four bytes of a word in the order memory holds them (R123). -/
def bytesOfWord (w : IWord) : List Byte :=
  [w.extractLsb' 24 8, w.extractLsb' 16 8, w.extractLsb' 8 8, w.extractLsb' 0 8]

/-- The word that bits numbered as spec/opcode_table.json numbers them stand for: bits above the row's are 0. -/
def tableWord (nbits w : Nat) : IWord := BitVec.ofNat 32 (w % 2 ^ min nbits 32)

/-- The instruction the decoder reads from an instruction whose bits are given as the opcode table numbers them. -/
def decodeTableWord (nbits w : Nat) : Option Instr :=
  match decodeBytes (bytesOfWord (tableWord nbits w)) with
  | .ok (i, _) => some i
  | .error _ => none

end Sys2Proof
end

