-- ==== Sys2Proof/Machine/Fetch.lean ====
section
/-! DEFINITION. Instruction fetch and the instruction cache (R57, R142, R152, R155; log 41), and what a word that is no
instruction raises (R183, R184). -/

namespace Sys2Proof.Machine

/-- An I-cache line that holds nothing valid. -/
def icacheEmpty (_ : Nat) : ICacheLine := ⟨false, 0, 0, Vector.replicate 8 0⟩

/-- The I-cache line an address selects: bits [13:5] (R152). -/
def icacheIndex (pc : Word) : Nat := (pc.extractLsb' 5 9).toNat

/-- The tag of an address: bits [63:14], the two forms of a KV1 address being the same (R105, R152, log 41). -/
def icacheTag (pc : Word) : BitVec 50 := (canonicalVa pc).extractLsb' 14 50

/-- One I-cache line. -/
def State.iline (s : State) (index : Nat) : ICacheLine := CMap.get icacheEmpty s.icache index

/-- The state with one I-cache line replaced. -/
def State.setIline (s : State) (index : Nat) (l : ICacheLine) : State :=
  { s with icache := CMap.set icacheEmpty s.icache index l }

/-- A hit (R152). Whether the IASID is compared for KV1 and KP addresses is not stated: a free choice when it differs. -/
def State.icacheHit (s : State) (pc : Word) : Bool :=
  let l := s.iline (icacheIndex pc)
  l.valid && l.tag == icacheTag pc &&
    (l.iasid == s.iasidView ||
      ((regionOf pc == 2 || regionOf pc == 3) && Config.freeBool .iasidCompared s.draws))

/-- The word of a line that an address selects. -/
def lineWord (ws : Vector IWord 8) (pc : Word) : IWord := ws[(pc.extractLsb' 2 3).toNat]'((pc.extractLsb' 2 3).isLt)

/-- The big-endian word that a fetch of a physical address gets (R123). -/
def State.memoryWord (s : State) (a : Nat) : IWord :=
  wordOfBytes (s.physByte a) (s.physByte (a + 1)) (s.physByte (a + 2)) (s.physByte (a + 3))

/-- The eight words of the line that holds a physical address (R142). -/
def State.memoryWords (s : State) (pa : PAddr) : Vector IWord 8 :=
  Vector.ofFn fun i => s.memoryWord (pa.toNat / 32 * 32 + 4 * i.val)

/-- Whether a fetched line stays valid: a cachable one, and one fetched at an address whose bits [63:59] are 10000 (R155). -/
def keepsLine (pc : Word) (t : Translation) : Bool := t.cachable || pc.extractLsb' 59 5 == 0b10000

/-- The state after an I-cache miss: the line comes through the streaming cache and is installed, valid or marked invalid
(R152, R154, R155). -/
def State.installLine (s : State) (pc : Word) (t : Translation) (ws : Vector IWord 8) : State :=
  (s.fetchSynonym pc t).setIline (icacheIndex pc) (if keepsLine pc t then ⟨true, icacheTag pc, s.iasidView, ws⟩ else icacheEmpty 0)

/-- FetchInstr (R142): alignment, legality, the I-cache, and on a miss the translation and the line. -/
def State.fetch (s : State) : Access (IWord × State) :=
  if s.pc.extractLsb' 0 2 ≠ 0 then .raise (.addressErrorLoad s.pc)
  else if !legalAddress s.pc s.user then .raise (.addressErrorLoad s.pc)
  else if s.icacheHit s.pc then .ok (lineWord (s.iline (icacheIndex s.pc)).words s.pc, s)
  else
    (s.translate .fetch s.pc false).bind fun t =>
      let ws := s.memoryWords t.pa
      .ok (lineWord ws s.pc, s.installLine s.pc t ws)

/-- What a word that is no instruction raises: Coprocessor Unusable by its major opcode, else Reserved Instruction
(R183, R184, R572). -/
def State.undecoded (s : State) (w : IWord) : Exc :=
  let f := Fields.split w
  if f.op = 16 ∧ s.usable0 = false then .coprocessorUnusable 0
  else if (f.op = 17 ∨ f.op = 19 ∨ (f.op = 0 ∧ f.fn = 1)) ∧ s.usable1 = false then .coprocessorUnusable 1
  else .reservedInstruction

/-- Memory stands at the four bytes of a word. -/
def State.backsWord (s : State) (pa : PAddr) : Bool :=
  s.backedAt pa.toNat && s.backedAt (pa.toNat + 1) && s.backedAt (pa.toNat + 2) && s.backedAt (pa.toNat + 3)

/-- The state with a word stored where the next fetch finds it: in the I-cache line when the fetch hits, else in memory, with a ROM put there
where none stands (log 13). -/
def State.placeWord (s : State) (w : IWord) : State :=
  if s.icacheHit s.pc then
    let k := icacheIndex s.pc
    let l := s.iline k
    s.setIline k { l with words := l.words.set (s.pc.extractLsb' 2 3).toNat w (s.pc.extractLsb' 2 3).isLt }
  else
    match s.translate .fetch s.pc false with
    | .ok t =>
      { s with
        mem := Memory.writeList (fun _ => true) s.mem t.pa.toNat (bytesOfWord w)
        physMap := if s.backsWord t.pa then s.physMap else ⟨t.pa.toNat, 4, .rom⟩ :: s.physMap }
    | _ => s

end Sys2Proof.Machine
end

