-- ==== Sys2Proof/Machine/Guards.lean ====
section
/-! DEFINITION. What must be enabled for an instruction to be executed at all: a Coprocessor Unusable or Reserved Instruction
exception comes before everything else that it does (R571, R572, R590). -/

namespace Sys2Proof.Machine

/-- What an instruction needs to be enabled (R572, R611, R612). -/
inductive Guard where
  /-- Nothing. -/
  | free
  /-- MIPS III instructions. -/
  | ux
  /-- SGI-extended instructions. -/
  | xx
  /-- Coprocessor 0. -/
  | cop0
  /-- Coprocessor 1. -/
  | cop1
  /-- Coprocessor 1 and MIPS III instructions. -/
  | cop1Ux
  /-- Coprocessor 1 and SGI-extended instructions. -/
  | cop1Xx
  /-- Coprocessor 1, and SGI-extended instructions for a condition code other than 0. -/
  | cop1Cc (cc : CC)
  deriving DecidableEq, Repr

/-- MIPS III instructions are enabled (R611). -/
def State.uxOn (s : State) : Bool := !s.user || s.statusView.ux

/-- SGI-extended instructions are enabled (R612). -/
def State.xxOn (s : State) : Bool := !s.user || s.statusView.xx

/-- What is needed is enabled. -/
def Guard.passes (g : Guard) (s : State) : Bool :=
  match g with
  | .free => true
  | .ux => s.uxOn
  | .xx => s.xxOn
  | .cop0 => s.usable0
  | .cop1 => s.usable1
  | .cop1Ux => s.usable1 && s.uxOn
  | .cop1Xx => s.usable1 && s.xxOn
  | .cop1Cc cc => s.usable1 && (cc == 0 || s.xxOn)

/-- What each instruction needs. -/
def guardOf : Instr → Guard
  | .ssnop | .add _ _ _ | .addu _ _ _ | .sub _ _ _ | .subu _ _ _ | .and _ _ _ | .or _ _ _ | .xor _ _ _ | .nor _ _ _
  | .slt _ _ _ | .sltu _ _ _ | .addi _ _ _ | .addiu _ _ _ | .slti _ _ _ | .sltiu _ _ _ | .andi _ _ _ | .ori _ _ _
  | .xori _ _ _ | .lui _ _ | .sll _ _ _ | .srl _ _ _ | .sra _ _ _ | .sllv _ _ _ | .srlv _ _ _ | .srav _ _ _
  | .mult _ _ | .multu _ _ | .div _ _ | .divu _ _ | .mfhi _ | .mthi _ | .mflo _ | .mtlo _ | .lb _ _ _ | .lbu _ _ _
  | .lh _ _ _ | .lhu _ _ _ | .lw _ _ _ | .sb _ _ _ | .sh _ _ _ | .sw _ _ _ | .lwl _ _ _ | .lwr _ _ _ | .swl _ _ _
  | .swr _ _ _ | .ll _ _ _ | .sc _ _ _ | .sync _ | .j _ | .jal _ | .jr _ | .jalr _ _ | .beq _ _ _ | .bne _ _ _
  | .beql _ _ _ | .bnel _ _ _ | .blez _ _ | .bgtz _ _ | .blezl _ _ | .bgtzl _ _ | .bltz _ _ | .bgez _ _
  | .bltzl _ _ | .bgezl _ _ | .bltzal _ _ | .bgezal _ _ | .bltzall _ _ | .bgezall _ _ | .tge _ _ _ | .tgeu _ _ _
  | .tlt _ _ _ | .tltu _ _ _ | .teq _ _ _ | .tne _ _ _ | .tgei _ _ | .tgeiu _ _ | .tlti _ _ | .tltiu _ _
  | .teqi _ _ | .tnei _ _ | .syscall _ | .brk _ => .free
  | .dadd _ _ _ | .daddu _ _ _ | .dsub _ _ _ | .dsubu _ _ _ | .daddi _ _ _ | .daddiu _ _ _ | .dsll _ _ _
  | .dsrl _ _ _ | .dsra _ _ _ | .dsll32 _ _ _ | .dsrl32 _ _ _ | .dsra32 _ _ _ | .dsllv _ _ _ | .dsrlv _ _ _
  | .dsrav _ _ _ | .dmult _ _ | .dmultu _ _ | .ddiv _ _ | .ddivu _ _ | .lwu _ _ _ | .ld _ _ _ | .sd _ _ _
  | .ldl _ _ _ | .ldr _ _ _ | .sdl _ _ _ | .sdr _ _ _ | .lld _ _ _ | .scd _ _ _ => .ux
  | .movz _ _ _ | .movn _ _ _ | .pref _ _ _ => .xx
  | .dmfc0 _ _ | .dmtc0 _ _ | .tlbr | .tlbp | .eret | .tlbw | .dctr | .dctw => .cop0
  | .addS _ _ _ | .addD _ _ _ | .subS _ _ _ | .subD _ _ _ | .mulS _ _ _ | .mulD _ _ _ | .divS _ _ _ | .divD _ _ _
  | .sqrtS _ _ | .sqrtD _ _ | .absS _ _ | .absD _ _ | .negS _ _ | .negD _ _ | .roundWS _ _ | .roundWD _ _
  | .truncWS _ _ | .truncWD _ _ | .ceilWS _ _ | .ceilWD _ _ | .floorWS _ _ | .floorWD _ _ | .cvtWS _ _ | .cvtWD _ _
  | .cvtSD _ _ | .cvtSW _ _ | .cvtDS _ _ | .cvtDW _ _ | .lwc1 _ _ _ | .ldc1 _ _ _ | .swc1 _ _ _ | .sdc1 _ _ _
  | .mfc1 _ _ | .cfc1 _ _ | .mtc1 _ _ | .ctc1 _ _ | .movS _ _ | .movD _ _ => .cop1
  | .roundLS _ _ | .roundLD _ _ | .truncLS _ _ | .truncLD _ _ | .ceilLS _ _ | .ceilLD _ _ | .floorLS _ _
  | .floorLD _ _ | .cvtLS _ _ | .cvtLD _ _ | .cvtSL _ _ | .cvtDL _ _ | .dmfc1 _ _ | .dmtc1 _ _ => .cop1Ux
  | .movf _ _ _ | .movt _ _ _ | .recipS _ _ | .recipD _ _ | .rsqrtS _ _ | .rsqrtD _ _ | .maddS _ _ _ _
  | .maddD _ _ _ _ | .msubS _ _ _ _ | .msubD _ _ _ _ | .nmaddS _ _ _ _ | .nmaddD _ _ _ _ | .nmsubS _ _ _ _
  | .nmsubD _ _ _ _ | .lwxc1 _ _ _ | .ldxc1 _ _ _ | .swxc1 _ _ _ | .sdxc1 _ _ _ | .pfetch _ _ _ | .movfS _ _ _
  | .movtS _ _ _ | .movzS _ _ _ | .movnS _ _ _ | .movfD _ _ _ | .movtD _ _ _ | .movzD _ _ _ | .movnD _ _ _ => .cop1Xx
  | .cFS _ _ cc | .cUnS _ _ cc | .cEqS _ _ cc | .cUeqS _ _ cc | .cOltS _ _ cc | .cUltS _ _ cc | .cOleS _ _ cc
  | .cUleS _ _ cc | .cSfS _ _ cc | .cNgleS _ _ cc | .cSeqS _ _ cc | .cNglS _ _ cc | .cLtS _ _ cc | .cNgeS _ _ cc
  | .cLeS _ _ cc | .cNgtS _ _ cc | .cFD _ _ cc | .cUnD _ _ cc | .cEqD _ _ cc | .cUeqD _ _ cc | .cOltD _ _ cc
  | .cUltD _ _ cc | .cOleD _ _ cc | .cUleD _ _ cc | .cSfD _ _ cc | .cNgleD _ _ cc | .cSeqD _ _ cc | .cNglD _ _ cc
  | .cLtD _ _ cc | .cNgeD _ _ cc | .cLeD _ _ cc | .cNgtD _ _ cc | .bc1f cc _ | .bc1t cc _ | .bc1fl cc _
  | .bc1tl cc _ => .cop1Cc cc

/-- The instruction raises Coprocessor Unusable or Reserved Instruction, and is not executed (R571, R572). -/
def State.barred (s : State) (i : Instr) : Bool := !(guardOf i).passes s

end Sys2Proof.Machine
end

