-- ==== Sys2Proof/Machine/Hazards.lean ====
section
/-! DEFINITION. The hazard table: which instructions must be kept apart by SSNOPs, and the record of what went before
(R660 to R668, R671; log 46). -/

namespace Sys2Proof.Machine

/-- The part an instruction plays as the second of a pair of the hazard table (R668). -/
inductive HazardRole where
  | plain
  | dmfc0 (rd : Reg)
  | dmtc0 (rd : Reg)
  | link
  | tlbr
  | tlbw
  | tlbp
  | dctr
  | dctw
  /-- Every load, store and prefetch; whether it is a store of the integer stream. -/
  | memory (intStore : Bool)
  | eret
  deriving DecidableEq, Repr

/-- The part each instruction plays (R668). -/
def hazardRole : Instr → HazardRole
  | .dmfc0 _ rd => .dmfc0 rd
  | .dmtc0 _ rd => .dmtc0 rd
  | .tlbr => .tlbr
  | .tlbw => .tlbw
  | .tlbp => .tlbp
  | .dctr => .dctr
  | .dctw => .dctw
  | .eret => .eret
  | .jal _ | .jalr _ _ | .bltzal _ _ | .bgezal _ _ | .bltzall _ _ | .bgezall _ _ => .link
  | .sb _ _ _ | .sh _ _ _ | .sw _ _ _ | .sd _ _ _ | .swl _ _ _ | .swr _ _ _ | .sdl _ _ _ | .sdr _ _ _
  | .sc _ _ _ | .scd _ _ _ => .memory true
  | .lb _ _ _ | .lbu _ _ _ | .lh _ _ _ | .lhu _ _ _ | .lw _ _ _ | .lwu _ _ _ | .ld _ _ _ | .lwl _ _ _
  | .lwr _ _ _ | .ldl _ _ _ | .ldr _ _ _ | .ll _ _ _ | .lld _ _ _ | .pref _ _ _ | .lwc1 _ _ _ | .ldc1 _ _ _
  | .swc1 _ _ _ | .sdc1 _ _ _ | .lwxc1 _ _ _ | .ldxc1 _ _ _ | .swxc1 _ _ _ | .sdxc1 _ _ _ | .pfetch _ _ _ => .memory false
  | .ssnop | .add _ _ _ | .addu _ _ _ | .sub _ _ _ | .subu _ _ _ | .dadd _ _ _ | .daddu _ _ _ | .dsub _ _ _
  | .dsubu _ _ _ | .and _ _ _ | .or _ _ _ | .xor _ _ _ | .nor _ _ _ | .slt _ _ _ | .sltu _ _ _ | .movz _ _ _
  | .movn _ _ _ | .addi _ _ _ | .addiu _ _ _ | .daddi _ _ _ | .daddiu _ _ _ | .slti _ _ _ | .sltiu _ _ _
  | .andi _ _ _ | .ori _ _ _ | .xori _ _ _ | .lui _ _ | .sll _ _ _ | .srl _ _ _ | .sra _ _ _ | .dsll _ _ _
  | .dsrl _ _ _ | .dsra _ _ _ | .dsll32 _ _ _ | .dsrl32 _ _ _ | .dsra32 _ _ _ | .sllv _ _ _ | .srlv _ _ _
  | .srav _ _ _ | .dsllv _ _ _ | .dsrlv _ _ _ | .dsrav _ _ _ | .movf _ _ _ | .movt _ _ _ | .mult _ _
  | .multu _ _ | .div _ _ | .divu _ _ | .dmult _ _ | .dmultu _ _ | .ddiv _ _ | .ddivu _ _ | .mfhi _ | .mthi _
  | .mflo _ | .mtlo _ | .sync _ | .j _ | .jr _ | .beq _ _ _ | .bne _ _ _ | .beql _ _ _ | .bnel _ _ _
  | .blez _ _ | .bgtz _ _ | .blezl _ _ | .bgtzl _ _ | .bltz _ _ | .bgez _ _ | .bltzl _ _ | .bgezl _ _
  | .tge _ _ _ | .tgeu _ _ _ | .tlt _ _ _ | .tltu _ _ _ | .teq _ _ _ | .tne _ _ _ | .tgei _ _ | .tgeiu _ _
  | .tlti _ _ | .tltiu _ _ | .teqi _ _ | .tnei _ _ | .syscall _ | .brk _ | .addS _ _ _ | .addD _ _ _
  | .subS _ _ _ | .subD _ _ _ | .mulS _ _ _ | .mulD _ _ _ | .divS _ _ _ | .divD _ _ _ | .sqrtS _ _
  | .sqrtD _ _ | .absS _ _ | .absD _ _ | .negS _ _ | .negD _ _ | .recipS _ _ | .recipD _ _ | .rsqrtS _ _
  | .rsqrtD _ _ | .roundLS _ _ | .roundLD _ _ | .truncLS _ _ | .truncLD _ _ | .ceilLS _ _ | .ceilLD _ _
  | .floorLS _ _ | .floorLD _ _ | .roundWS _ _ | .roundWD _ _ | .truncWS _ _ | .truncWD _ _ | .ceilWS _ _
  | .ceilWD _ _ | .floorWS _ _ | .floorWD _ _ | .cvtWS _ _ | .cvtWD _ _ | .cvtLS _ _ | .cvtLD _ _ | .cvtSD _ _
  | .cvtSW _ _ | .cvtSL _ _ | .cvtDS _ _ | .cvtDW _ _ | .cvtDL _ _ | .maddS _ _ _ _ | .maddD _ _ _ _
  | .msubS _ _ _ _ | .msubD _ _ _ _ | .nmaddS _ _ _ _ | .nmaddD _ _ _ _ | .nmsubS _ _ _ _ | .nmsubD _ _ _ _
  | .cFS _ _ _ | .cUnS _ _ _ | .cEqS _ _ _ | .cUeqS _ _ _ | .cOltS _ _ _ | .cUltS _ _ _ | .cOleS _ _ _
  | .cUleS _ _ _ | .cSfS _ _ _ | .cNgleS _ _ _ | .cSeqS _ _ _ | .cNglS _ _ _ | .cLtS _ _ _ | .cNgeS _ _ _
  | .cLeS _ _ _ | .cNgtS _ _ _ | .cFD _ _ _ | .cUnD _ _ _ | .cEqD _ _ _ | .cUeqD _ _ _ | .cOltD _ _ _
  | .cUltD _ _ _ | .cOleD _ _ _ | .cUleD _ _ _ | .cSfD _ _ _ | .cNgleD _ _ _ | .cSeqD _ _ _ | .cNglD _ _ _
  | .cLtD _ _ _ | .cNgeD _ _ _ | .cLeD _ _ _ | .cNgtD _ _ _ | .mfc1 _ _ | .dmfc1 _ _ | .cfc1 _ _ | .mtc1 _ _
  | .dmtc1 _ _ | .ctc1 _ _ | .bc1f _ _ | .bc1t _ _ | .bc1fl _ _ | .bc1tl _ _ | .movS _ _ | .movfS _ _ _
  | .movtS _ _ _ | .movzS _ _ _ | .movnS _ _ _ | .movD _ _ | .movfD _ _ _ | .movtD _ _ _ | .movzD _ _ _
  | .movnD _ _ _ => .plain

/-- The floating-point instructions: COP1, COP1X, and floating-point loads and stores (R671). -/
def isFloat : Instr → Bool
  | .addS _ _ _ | .addD _ _ _ | .subS _ _ _ | .subD _ _ _ | .mulS _ _ _ | .mulD _ _ _ | .divS _ _ _
  | .divD _ _ _ | .sqrtS _ _ | .sqrtD _ _ | .absS _ _ | .absD _ _ | .negS _ _ | .negD _ _ | .recipS _ _
  | .recipD _ _ | .rsqrtS _ _ | .rsqrtD _ _ | .roundLS _ _ | .roundLD _ _ | .truncLS _ _ | .truncLD _ _
  | .ceilLS _ _ | .ceilLD _ _ | .floorLS _ _ | .floorLD _ _ | .roundWS _ _ | .roundWD _ _ | .truncWS _ _
  | .truncWD _ _ | .ceilWS _ _ | .ceilWD _ _ | .floorWS _ _ | .floorWD _ _ | .cvtWS _ _ | .cvtWD _ _
  | .cvtLS _ _ | .cvtLD _ _ | .cvtSD _ _ | .cvtSW _ _ | .cvtSL _ _ | .cvtDS _ _ | .cvtDW _ _ | .cvtDL _ _
  | .maddS _ _ _ _ | .maddD _ _ _ _ | .msubS _ _ _ _ | .msubD _ _ _ _ | .nmaddS _ _ _ _ | .nmaddD _ _ _ _
  | .nmsubS _ _ _ _ | .nmsubD _ _ _ _ | .cFS _ _ _ | .cUnS _ _ _ | .cEqS _ _ _ | .cUeqS _ _ _ | .cOltS _ _ _
  | .cUltS _ _ _ | .cOleS _ _ _ | .cUleS _ _ _ | .cSfS _ _ _ | .cNgleS _ _ _ | .cSeqS _ _ _ | .cNglS _ _ _
  | .cLtS _ _ _ | .cNgeS _ _ _ | .cLeS _ _ _ | .cNgtS _ _ _ | .cFD _ _ _ | .cUnD _ _ _ | .cEqD _ _ _
  | .cUeqD _ _ _ | .cOltD _ _ _ | .cUltD _ _ _ | .cOleD _ _ _ | .cUleD _ _ _ | .cSfD _ _ _ | .cNgleD _ _ _
  | .cSeqD _ _ _ | .cNglD _ _ _ | .cLtD _ _ _ | .cNgeD _ _ _ | .cLeD _ _ _ | .cNgtD _ _ _ | .lwc1 _ _ _
  | .ldc1 _ _ _ | .swc1 _ _ _ | .sdc1 _ _ _ | .lwxc1 _ _ _ | .ldxc1 _ _ _ | .swxc1 _ _ _ | .sdxc1 _ _ _
  | .pfetch _ _ _ | .mfc1 _ _ | .dmfc1 _ _ | .cfc1 _ _ | .mtc1 _ _ | .dmtc1 _ _ | .ctc1 _ _ | .bc1f _ _
  | .bc1t _ _ | .bc1fl _ _ | .bc1tl _ _ | .movS _ _ | .movfS _ _ _ | .movtS _ _ _ | .movzS _ _ _
  | .movnS _ _ _ | .movD _ _ | .movfD _ _ _ | .movtD _ _ _ | .movzD _ _ _ | .movnD _ _ _ => true
  | .ssnop | .add _ _ _ | .addu _ _ _ | .sub _ _ _ | .subu _ _ _ | .dadd _ _ _ | .daddu _ _ _ | .dsub _ _ _
  | .dsubu _ _ _ | .and _ _ _ | .or _ _ _ | .xor _ _ _ | .nor _ _ _ | .slt _ _ _ | .sltu _ _ _ | .movz _ _ _
  | .movn _ _ _ | .addi _ _ _ | .addiu _ _ _ | .daddi _ _ _ | .daddiu _ _ _ | .slti _ _ _ | .sltiu _ _ _
  | .andi _ _ _ | .ori _ _ _ | .xori _ _ _ | .lui _ _ | .sll _ _ _ | .srl _ _ _ | .sra _ _ _ | .dsll _ _ _
  | .dsrl _ _ _ | .dsra _ _ _ | .dsll32 _ _ _ | .dsrl32 _ _ _ | .dsra32 _ _ _ | .sllv _ _ _ | .srlv _ _ _
  | .srav _ _ _ | .dsllv _ _ _ | .dsrlv _ _ _ | .dsrav _ _ _ | .movf _ _ _ | .movt _ _ _ | .mult _ _
  | .multu _ _ | .div _ _ | .divu _ _ | .dmult _ _ | .dmultu _ _ | .ddiv _ _ | .ddivu _ _ | .mfhi _ | .mthi _
  | .mflo _ | .mtlo _ | .lb _ _ _ | .lbu _ _ _ | .lh _ _ _ | .lhu _ _ _ | .lw _ _ _ | .lwu _ _ _ | .ld _ _ _
  | .sb _ _ _ | .sh _ _ _ | .sw _ _ _ | .sd _ _ _ | .lwl _ _ _ | .lwr _ _ _ | .swl _ _ _ | .swr _ _ _
  | .ldl _ _ _ | .ldr _ _ _ | .sdl _ _ _ | .sdr _ _ _ | .ll _ _ _ | .lld _ _ _ | .sc _ _ _ | .scd _ _ _
  | .sync _ | .pref _ _ _ | .j _ | .jal _ | .jr _ | .jalr _ _ | .beq _ _ _ | .bne _ _ _ | .beql _ _ _
  | .bnel _ _ _ | .blez _ _ | .bgtz _ _ | .blezl _ _ | .bgtzl _ _ | .bltz _ _ | .bgez _ _ | .bltzl _ _
  | .bgezl _ _ | .bltzal _ _ | .bgezal _ _ | .bltzall _ _ | .bgezall _ _ | .tge _ _ _ | .tgeu _ _ _
  | .tlt _ _ _ | .tltu _ _ _ | .teq _ _ _ | .tne _ _ _ | .tgei _ _ | .tgeiu _ _ | .tlti _ _ | .tltiu _ _
  | .teqi _ _ | .tnei _ _ | .syscall _ | .brk _ | .dmfc0 _ _ | .dmtc0 _ _ | .tlbr | .tlbp | .eret | .tlbw
  | .dctr | .dctw => false

/-- The SSNOPs a row asks for that Table B-1 sets above the prose latency: the table's count, or the prose's (R663, R665,
D39). -/
def byPolicy (p : HazardPolicy) (table prose : Nat) : Nat :=
  match p with
  | .table => table
  | .prose => prose

/-- The TLB operations of Table B-1 (R668). -/
def HazardRole.isTlbOp : HazardRole → Bool
  | .tlbr => true
  | .tlbw => true
  | .tlbp => true
  | _ => false

/-- The coprocessor-0 memory instructions (R662). -/
def HazardRole.isCop0Memory : HazardRole → Bool
  | .dctr => true
  | .dctw => true
  | r => r.isTlbOp

/-- The SSNOPs required after a DMTC0 to a register (R668). -/
def afterDmtc0 (p : HazardPolicy) (rd : Reg) (b : HazardRole) : Nat :=
  match b with
  | .dmfc0 _ => 2
  | .dmtc0 _ => 1
  | .link => 2
  | .memory intStore => if rd = 8 ∧ intStore then 1 else 0
  | .eret => if rd = 14 then 2 else if rd = 12 then 4 else 0
  | .plain => 0
  | b =>
    if rd = 8 then 2
    else if b = .dctw ∧ rd = 28 then 2
    else if !b.isTlbOp then 0
    else if rd = 12 ∨ rd = 10 then byPolicy p 2 1
    else if rd = 0 then byPolicy p 2 (if b = .tlbw then 1 else 0)
    else if rd = 2 then byPolicy p 2 0
    else 0

/-- The SSNOPs required between a first instruction and a second one (R668). -/
def ssnopsRequired (p : HazardPolicy) (a : HazardKind) (b : HazardRole) : Nat :=
  match a, b with
  | .dmfc0, .dmfc0 _ => 1
  | .dmfc0, .dmtc0 _ => 1
  | .dmfc0, .link => 1
  | .dmtc0 rd, b => afterDmtc0 p rd b
  | .link, .dmfc0 _ => 1
  | .link, .dmtc0 _ => 1
  | .tlbr, .memory _ => 3
  | .tlbw, .memory _ => 3
  | .tlbp, .memory _ => 3
  | .tlbr, .dmfc0 rd => if rd = 10 ∨ rd = 2 then byPolicy p 4 3 else 0
  | .tlbp, .dmfc0 rd => if rd = 0 then 4 else 0
  | .dctr, .dmfc0 rd => if rd = 28 then 3 else 0
  | .tlbr, .dmtc0 rd => if rd = 8 ∨ rd = 10 ∨ rd = 2 then 2 else 0
  | .tlbw, .dmtc0 rd => if rd = 8 then 2 else 0
  | .tlbp, .dmtc0 rd => if rd = 8 ∨ rd = 0 then 2 else 0
  | .dctr, .dmtc0 rd => if rd = 8 ∨ rd = 28 then 2 else 0
  | .dctw, .dmtc0 rd => if rd = 8 then 2 else 0
  | .intStore, .dmtc0 rd => if rd = 8 then 1 else 0
  | .pageSizeChange, .memory _ => 3
  | .asidChange, .memory _ => 3
  | _, _ => 0

/-- Whether an earlier instruction is too close to this one; a DMTC0 to EntryLo may be followed directly by TLBW (R668). -/
def HazardEntry.violates (p : HazardPolicy) (e : HazardEntry) (b : HazardRole) : Bool :=
  if e.kind = .dmtc0 2 ∧ b = .tlbw ∧ e.insns = 0 then false
  else decide (e.ssnops < ssnopsRequired p e.kind b)

/-- Whether a floating-point instruction comes too soon after a change of Status.DM (R671). -/
def HazardEntry.modeChanged (e : HazardEntry) : Bool := e.kind == .dmChange && decide (e.insns < Config.fpDmWait)

/-- A hazard violation: the instruction and one that went before it (R660, R668, R671). -/
def State.hazardViolation (s : State) (i : Instr) : Bool :=
  s.hazards.any (fun e => e.violates Config.hazardPolicy (hazardRole i)) ||
    (isFloat i && s.hazards.any HazardEntry.modeChanged)

/-- What a DMTC0 changes that later instructions must keep away from (R668). -/
def State.changes (s : State) (rd : Reg) (v : Word) : List HazardKind :=
  let new := StatusReg.ofWord v
  let old := s.cp0.status
  (if rd = 12 ∧ (new.ups ≠ old.ups ∨ new.kps ≠ old.kps) then [.pageSizeChange] else []) ++
    (if rd = 12 ∧ new.dm ≠ old.dm then [.dmChange] else []) ++
    (if rd = 10 ∧ (TlbHi.ofWord v).asid ≠ s.cp0.entryHi.asid then [.asidChange] else [])

/-- What an instruction is as the first of a pair of the hazard table (R668). -/
def State.hazardKinds (s : State) (i : Instr) : List HazardKind :=
  match hazardRole i with
  | .plain => []
  | .dmfc0 _ => [.dmfc0]
  | .dmtc0 rd =>
    match i with
    | .dmtc0 rt _ => .dmtc0 rd :: s.changes rd (s.reg rt)
    | _ => [.dmtc0 rd]
  | .link => [.link]
  | .tlbr => [.tlbr]
  | .tlbw => [.tlbw]
  | .tlbp => [.tlbp]
  | .dctr => [.dctr]
  | .dctw => [.dctw]
  | .memory intStore => if intStore then [.intStore] else []
  | .eret => []

/-- A recorded instruction after one more was executed. -/
def HazardEntry.age (e : HazardEntry) (isSsnop : Bool) : HazardEntry :=
  ⟨e.kind, if isSsnop then e.ssnops + 1 else e.ssnops, e.insns + 1⟩

/-- Whether a recorded instruction can still matter: no row asks for more than four SSNOPs; a change of DM is kept (R668, R671). -/
def HazardEntry.live (e : HazardEntry) : Bool := decide (e.ssnops < 4) || e.kind == .dmChange

/-- The record of the instructions that went before, after one more: only the nearest of each kind matters (R668). -/
def State.recordHazards (s : State) (i : Instr) : State :=
  let new := s.hazardKinds i
  let aged := (s.hazards.map fun e => e.age (i == .ssnop)).filter fun e => e.live && !new.contains e.kind
  { s with hazards := new.map (fun k => ⟨k, 0, 0⟩) ++ aged }

end Sys2Proof.Machine
end

