-- ==== Sys2Proof/Machine/Step.lean ====
section
/-! DEFINITION. One step: what happens between two instructions, then an NMI, an interrupt or one instruction (R341, R590). -/

namespace Sys2Proof.Machine

/-- A decoded instruction is executed unless it comes too close to an earlier one (R660). One that is not enabled raises its
exception and is never executed, however close it comes (R572, R590). -/
def runInstr (i : Instr) (s : State) : Host.Outcome State Fault Refusal :=
  if s.hazardViolation i && !s.barred i then .refused .hazardViolation else exec i (s.recordHazards i)

/-- A fetched word: an instruction, or the exception of a word that is none (R183, R184). -/
def runWord (w : IWord) (s : State) : Host.Outcome State Fault Refusal :=
  match decodeWord w with
  | .ok i => runInstr i s
  | .error _ => .next (takeException (s.undecoded w) s)

/-- The instruction at the program counter (R341). -/
def fetchAndRun (s : State) : Host.Outcome State Fault Refusal :=
  match s.fetch with
  | .ok r => runWord r.1 r.2.draw
  | .raise e => .next (takeException e s)
  | .fault f => .fault f
  | .refuse r => .refused r

/-- One step, from the state between two instructions (R590). -/
def stepFrom (s : State) : Host.Outcome State Fault Refusal :=
  if s.nmiTaken then .next (takeNmi s)
  else if s.interrupted then .next (takeException .interrupt s)
  else fetchAndRun s

/-- One step of the machine. -/
def step (s : State) : Host.Outcome State Fault Refusal := stepFrom s.boundary

/-- The state with an instruction, whose bits are numbered as the opcode table numbers them, stored where the next step
fetches it (log 13). -/
def State.withFetchWord (s : State) (nbits w : Nat) : State := s.placeWord (tableWord nbits w)

end Sys2Proof.Machine
end

