-- ==== Sys2Proof/Safety.lean ====
section
/-! DEFINITION. What counts as a safe run, the invariant of the machine, and the terms in which claims say what an
instruction changes and what it leaves alone. -/

namespace Sys2Proof.Machine

/-! ## Runs -/

/-- A number of steps, stopping at the first fault or refusal. -/
def runSteps : Nat → State → Outcome
  | 0, s => .next s
  | k + 1, s =>
    match step s with
    | .next t => runSteps k t
    | .fault f => .fault f
    | .refused r => .refused r

/-- A run is safe when none of its steps faults or is refused: taking an exception is safe. -/
def SafeFor (k : Nat) (s : State) : Prop := ∃ t, runSteps k s = .next t

/-! ## The invariant -/

/-- Every table of the machine has its canonical form, so that equal contents are equal data. -/
structure Canonical (s : State) : Prop where
  mem : Memory.wf s.mem = true
  byteOrder : CMap.wf ByteOrder.unlisted s.byteOrder = true
  tlb : CMap.wf tlbUnwritten s.tlb = true
  icache : CMap.wf icacheEmpty s.icache = true
  dcache : CMap.wf dcacheEmpty s.dcache = true
  dcacheWritten : CMap.wf dcacheUnwritten s.dcacheWritten = true
  scache : CMap.wf scacheEmpty s.scache = true

/-- Outside a delay slot the next instruction is the next word (R341). -/
def Sequential (s : State) : Prop := s.inSlot = false → s.npc = s.pc + 4

/-! ## What stays as it was -/

/-- The parts of the state besides the program counter (`pc`, `npc`, `inSlot`) and `fccBusy`, the model's record of the
condition codes that the last instruction wrote. -/
inductive Part where
  /-- The general registers. -/
  | regs
  /-- Every byte of memory. -/
  | memory
  | hi
  | lo
  /-- The model's record that a multiply or divide waits to be read (R279). -/
  | hiloBusy
  | fprs
  /-- The formats in which the floating-point registers were written. -/
  | fprTags
  | fsr
  | cp0
  | tlb
  | llbit
  /-- The model's record of the access last linked (R324). -/
  | linked
  | icache
  | dcache
  /-- The half lines of the data cache that DCTW has written. -/
  | dcacheWritten
  | scache
  /-- What stands at each physical address. -/
  | physMap
  /-- The byte order in which memory was last stored. -/
  | byteOrder
  /-- The windows of late writes. -/
  | late
  | fpiSeen
  | vciPending
  | nmiPending
  | inputs
  | hazards
  | draws
  deriving DecidableEq, Repr

/-- A part is as it was. -/
def Keeps (s t : State) : Part → Prop
  | .regs => ∀ r, t.reg r = s.reg r
  | .memory => ∀ a, Memory.read t.mem a = Memory.read s.mem a
  | .hi => t.hi = s.hi
  | .lo => t.lo = s.lo
  | .hiloBusy => t.hiloBusy = s.hiloBusy
  | .fprs => t.fpr = s.fpr
  | .fprTags => t.fprTag = s.fprTag
  | .fsr => t.fsr = s.fsr
  | .cp0 => t.cp0 = s.cp0
  | .tlb => t.tlb = s.tlb
  | .llbit => t.llbit = s.llbit
  | .linked => t.linked = s.linked
  | .icache => t.icache = s.icache
  | .dcache => t.dcache = s.dcache
  | .dcacheWritten => t.dcacheWritten = s.dcacheWritten
  | .scache => t.scache = s.scache
  | .physMap => t.physMap = s.physMap
  | .byteOrder => t.byteOrder = s.byteOrder
  | .late => t.late = s.late
  | .fpiSeen => t.fpiSeen = s.fpiSeen
  | .vciPending => t.vciPending = s.vciPending
  | .nmiPending => t.nmiPending = s.nmiPending
  | .inputs => t.inputs = s.inputs
  | .hazards => t.hazards = s.hazards
  | .draws => t.draws = s.draws

/-- Every part but the listed ones is as it was. -/
def KeepsAllBut (s t : State) (parts : List Part) : Prop := ∀ p, p ∉ parts → Keeps s t p

/-- Every general register but one is as it was. -/
def KeepsRegsBut (s t : State) (r : Reg) : Prop := ∀ q, q ≠ r → t.reg q = s.reg q

/-- Every floating-point register but one is as it was, with its format. -/
def KeepsFprsBut (s t : State) (r : Reg) : Prop :=
  ∀ q : Reg, q ≠ r → t.fprFile q = s.fprFile q ∧ t.fprTag[q.toNat]'q.isLt = s.fprTag[q.toNat]'q.isLt

/-- Bytes are stored from a physical address on: where RAM stands its byte is the stored one, and every other byte of memory is
as it was (R108). -/
def StoredAt (s t : State) (a : Nat) (bs : List Byte) : Prop :=
  (∀ k, k < bs.length → s.ramAt (a + k) = true → Memory.read t.mem (a + k) = bs.getD k 0) ∧
  ∀ b, b < a ∨ a + bs.length ≤ b ∨ s.ramAt b = false → Memory.read t.mem b = Memory.read s.mem b

/-- Between two states the virtual synonym of a sector that the streaming cache held was rewritten, which is what a repair does to
the streaming cache; a sector newly taken is none (R154). -/
def Resynonymed (s t : State) : Prop :=
  ∃ q x y, CMap.get scacheEmpty s.scache q = some x ∧ CMap.get scacheEmpty t.scache q = some y ∧ x ≠ y

/-- LLbit is as it was, or the repair of a virtual synonym in the streaming cache cleared it (R154, R156, D20). -/
def KeepsLinkBut (s t : State) : Prop := t.llbit = s.llbit ∨ (t.llbit = false ∧ Resynonymed s t)

/-- The program counter and the record of busy condition codes, which are no part of `Keeps`, are as they were. -/
def Stays (s t : State) : Prop := t.pc = s.pc ∧ t.npc = s.npc ∧ t.inSlot = s.inSlot ∧ t.fccBusy = s.fccBusy

/-! ## Encodings -/

/-- A word in the R-type layout (R171). -/
def rType (op : BitVec 6) (rs rt rd sa : BitVec 5) (fn : BitVec 6) : IWord := op ++ rs ++ rt ++ rd ++ sa ++ fn

/-- A word in the I-type layout (R171). -/
def iType (op : BitVec 6) (rs rt : BitVec 5) (imm : BitVec 16) : IWord := op ++ rs ++ rt ++ imm

/-- A word in the J-type layout (R171). -/
def jType (op : BitVec 6) (target : BitVec 26) : IWord := op ++ target

/-- A word is an instruction. -/
def Decodes (w : IWord) (i : Instr) : Prop := decodeWord w = .ok i

/-! ## How an instruction completes -/

/-- Sequential completion: the next instruction is the one NPC names (R341). -/
def Advances (s t : State) : Prop := t.pc = s.npc ∧ t.npc = s.npc + 4 ∧ t.inSlot = false

/-- The instruction completes and its only effect is the value of a general register; r0 stays zero. -/
def WritesReg (i : Instr) (s : State) (rd : Reg) (v : Word) : Prop :=
  ∃ t, exec i s = .next t ∧ Advances s t ∧ t.reg rd = (if rd = 0 then 0 else v) ∧ KeepsRegsBut s t rd ∧
    KeepsAllBut s t [.regs]

/-- The instruction completes and changes nothing but the program counter. -/
def DoesNothing (i : Instr) (s : State) : Prop := ∃ t, exec i s = .next t ∧ Advances s t ∧ KeepsAllBut s t []

/-- The instruction completes and its only effect is on HI and LO. -/
def WritesHiLo (i : Instr) (s : State) (hi lo : Word) : Prop :=
  ∃ t, exec i s = .next t ∧ Advances s t ∧ t.hi = hi ∧ t.lo = lo ∧ KeepsAllBut s t [.hi, .lo, .hiloBusy]

/-- What a jump or branch leaves besides the program counter: a linking one writes the address of the instruction after its
delay slot to its link register (R343), and nothing else changes. -/
def Links (s t : State) : Option Reg → Prop
  | none => KeepsAllBut s t []
  | some r => t.reg r = (if r = 0 then 0 else s.pc + 8) ∧ KeepsRegsBut s t r ∧ KeepsAllBut s t [.regs]

/-- The instruction completes as a taken transfer of control: its delay slot next, then the target (R341). -/
def Transfers (i : Instr) (s : State) (target : Word) (link : Option Reg) : Prop :=
  ∃ t, exec i s = .next t ∧ t.pc = s.npc ∧ t.npc = target ∧ t.inSlot = true ∧ Links s t link

/-- The instruction completes as a branch that is not taken: its delay slot next, then the instruction after it (R341). -/
def FallsThrough (i : Instr) (s : State) (link : Option Reg) : Prop :=
  ∃ t, exec i s = .next t ∧ t.pc = s.npc ∧ t.npc = s.npc + 4 ∧ t.inSlot = true ∧ Links s t link

/-- The instruction completes as a branch-likely that is not taken: its delay slot is nullified (R341). -/
def SkipsSlot (i : Instr) (s : State) (link : Option Reg) : Prop :=
  ∃ t, exec i s = .next t ∧ t.pc = s.npc + 4 ∧ t.npc = s.npc + 8 ∧ t.inSlot = false ∧ Links s t link

/-- The instruction completes as a conditional branch. -/
def Branches (i : Instr) (s : State) (c : Prop) (target : Word) (link : Option Reg) : Prop :=
  (c → Transfers i s target link) ∧ (¬c → FallsThrough i s link)

/-- The instruction completes as a branch-likely. -/
def BranchesLikely (i : Instr) (s : State) (c : Prop) (target : Word) (link : Option Reg) : Prop :=
  (c → Transfers i s target link) ∧ (¬c → SkipsSlot i s link)

/-- The instruction takes an exception. -/
def Raises (i : Instr) (s : State) (e : Exc) : Prop := exec i s = .next (takeException e s)

/-- The instruction completes and its only effects are the value a general register gets and what the data cache and the
streaming cache then hold; with a repair of the streaming cache LLbit may be cleared. -/
def LoadsReg (i : Instr) (s : State) (rt : Reg) (v : Word) : Prop :=
  ∃ t, exec i s = .next t ∧ Advances s t ∧ t.reg rt = (if rt = 0 then 0 else v) ∧ KeepsRegsBut s t rt ∧
    KeepsLinkBut s t ∧ KeepsAllBut s t [.regs, .llbit, .dcache, .scache]

/-- The instruction completes and its only effects are the bytes it stores from a physical address on, the record of their
byte order, what the data cache and the streaming cache then hold, and the other parts listed; with a repair of the streaming
cache LLbit may be cleared. -/
def StoresBytes (i : Instr) (s : State) (a : Nat) (bs : List Byte) (also : List Part) : Prop :=
  ∃ t, exec i s = .next t ∧ Advances s t ∧ StoredAt s t a bs ∧ KeepsLinkBut s t ∧
    KeepsAllBut s t (.memory :: .byteOrder :: .llbit :: .dcache :: .scache :: also)

/-- An instruction run after another one: it gives a value in a general register, and no other one differs from before the two. -/
def ThenGets (i : Instr) (s u : State) (rd : Reg) (v : Word) : Prop :=
  ∃ w, exec i u = .next w ∧ w.reg rd = (if rd = 0 then 0 else v) ∧ KeepsRegsBut s w rd

/-! ## What a reference leaves in the caches (R56, R151, R153, R154) -/

/-- Whatever state the instruction completes in is of this kind. -/
def Leaves (i : Instr) (s : State) (p : State → Prop) : Prop := ∀ t, exec i s = .next t → p t

/-- The streaming cache holds the sector of a cachable reference under another virtual synonym, and a line of the data cache
holds a copy of it under that one: what a repair invalidates (R154). -/
def SynonymCopy (s : State) (va : Word) (tr : Translation) (j : Nat) : Prop :=
  (tr.cachable = true ∧ ∃ vs, s.synonym tr.pa = some vs ∧ vs ≠ va.extractLsb' 12 4 ∧
    j / 4 = vs.toNat % 4 * 32 + tr.pa.toNat / 128 % 32) ∧ (s.dline j).tag = tr.pa.extractLsb' 12 28

/-- A line of the data cache as a repair of the sector's virtual synonym leaves it. -/
def Repaired (s : State) (va : Word) (tr : Translation) (j : Nat) (l : DCacheLine) : Prop :=
  (SynonymCopy s va tr j → l = { s.dline j with valid := 0 }) ∧ (¬SynonymCopy s va tr j → l = s.dline j)

/-- The streaming cache after a reference reached it: the sector of a cachable one is held under the reference's virtual
synonym, every other sector as before (R154). -/
def Referenced (s : State) (va : Word) (tr : Translation) (t : State) : Prop :=
  (tr.cachable = false → t.scache = s.scache) ∧
  (tr.cachable = true → t.synonym tr.pa = some (va.extractLsb' 12 4) ∧
    ∀ q, q ≠ tr.pa.toNat / 128 → CMap.get scacheEmpty t.scache q = CMap.get scacheEmpty s.scache q)

/-- Bytes of a line after some are put at an offset. -/
def PutAt (old new : Vector Byte 32) (off : Nat) (bs : List Byte) : Prop :=
  ∀ i, i < 32 → new.toList.getD i 0 = if off ≤ i ∧ i < off + bs.length then bs.getD (i - off) 0 else old.toList.getD i 0

/-- A word of a line is one of those that n bytes from a physical address touch. -/
def Touches (pa : PAddr) (n w : Nat) : Prop := ∃ k, k < n ∧ (pa.toNat % 32 + k) / 4 = w

/-- A line filled for a physical address: its tag, and the bytes of memory where memory stands (R56, R151). -/
def Filled (m : State) (pa : PAddr) (l : DCacheLine) : Prop :=
  l.tag = pa.extractLsb' 12 28 ∧ ∀ i, i < 32 → m.backedAt (pa.toNat / 32 * 32 + i) = true →
    l.data.toList.getD i 0 = Memory.read m.mem (pa.toNat / 32 * 32 + i)

/-- A line used as the buffer of an uncached reference: its bytes are there, marked invalid (R153); that the other words of the
same tag keep their valid bits, that those of another one lose them, and that E stays, is the model's choice (log 42). -/
def Buffered (old : DCacheLine) (pa : PAddr) (bs : List Byte) (l : DCacheLine) : Prop :=
  l.tag = pa.extractLsb' 12 28 ∧ l.exclusive = old.exclusive ∧ PutAt old.data l.data (pa.toNat % 32) bs ∧
    (pa.toNat % 32 + bs.length ≤ 32 → ∀ w, w < 8 →
      (l.valid.getLsbD w = true ↔
        old.tag = pa.extractLsb' 12 28 ∧ old.valid.getLsbD w = true ∧ ¬Touches pa bs.length w))

/-- The caches after an integer load of n bytes: a hit changes neither; a miss fills the line that VA[13:5] selects, or uses it as
a buffer, and leaves every other line but the copies that a repair invalidates. Where no DCTW has written the half line since
reset it is the one or the other (log 9). -/
def LoadedCaches (s : State) (va : Word) (tr : Translation) (n : Nat) (t : State) : Prop :=
  let k := (va.extractLsb' 5 9).toNat
  let same := t.dcache = s.dcache ∧ t.scache = s.scache
  let missed := Referenced s va tr t ∧ (∀ j, j ≠ k → Repaired s va tr j (t.dline j)) ∧
    (tr.cachable = true → Filled s tr.pa (t.dline k)) ∧
    (tr.cachable = false → ∃ bs, bs.length = n ∧
      (∀ i, i < n → s.backedAt (tr.pa.toNat + i) = true → bs.getD i 0 = Memory.read s.mem (tr.pa.toNat + i)) ∧
      Buffered (s.dline k) tr.pa bs (t.dline k))
  (CMap.get dcacheUnwritten s.dcacheWritten (va.extractLsb' 4 10).toNat = true →
    ((s.dline k).hit tr.pa n = true → same) ∧ ((s.dline k).hit tr.pa n = false → missed)) ∧ (same ∨ missed)

/-- The caches after an integer store of these bytes: a hit puts them in the line that VA[13:5] selects, a miss fills it from the
memory stored to, or uses it as a buffer; every other line is as before but the copies that a repair invalidates. That a hit keeps
E is the model's choice (log 42). Where no DCTW has written the half line since reset it is the one or the other (log 9). -/
def StoredCaches (s : State) (va : Word) (tr : Translation) (bs : List Byte) (t : State) : Prop :=
  let k := (va.extractLsb' 5 9).toNat
  Referenced s va tr t ∧ (∀ j, j ≠ k → Repaired s va tr j (t.dline j)) ∧
  ∃ l, Repaired s va tr k l ∧
    let updated := (∃ d, t.dline k = { l with data := d }) ∧ PutAt l.data (t.dline k).data (tr.pa.toNat % 32) bs
    let missed := (tr.cachable = true → Filled t tr.pa (t.dline k)) ∧
      (tr.cachable = false → Buffered l tr.pa bs (t.dline k))
    (CMap.get dcacheUnwritten s.dcacheWritten (va.extractLsb' 4 10).toNat = true →
      (l.hit tr.pa bs.length = true → updated) ∧ (l.hit tr.pa bs.length = false → missed)) ∧ (updated ∨ missed)

/-- A cachable reference to a sector that the streaming cache does not hold gives it the reference's virtual synonym (R154). -/
def TakesNewSector (s : State) (va : Word) (tr : Translation) (t : State) : Prop :=
  tr.cachable = true → s.synonym tr.pa = none → t.synonym tr.pa = some (va.extractLsb' 12 4)

/-- The caches after a floating-point load: both as before, or the sector taken over with its copies invalidated, as a lost
sector is; one that is not held is taken (R151, R154). -/
def FloatLoadedCaches (s : State) (va : Word) (tr : Translation) (t : State) : Prop :=
  TakesNewSector s va tr t ∧
  ((t.dcache = s.dcache ∧ t.scache = s.scache) ∨ (Referenced s va tr t ∧ ∀ j, Repaired s va tr j (t.dline j)))

/-- The caches after a floating-point store of n bytes: the words it stores lose their valid bits in the line that VA[13:5] selects
when it holds them, and with SMM = 1 in the copy under the synonym that the streaming cache holds; no other line changes but the
copies under that synonym, which may lose valid bits (R56, R151, R154, R160). That every line keeps E is the model's choice
(log 42). -/
def FloatStoredCaches (s : State) (va : Word) (tr : Translation) (n : Nat) (t : State) : Prop :=
  let k := (va.extractLsb' 5 9).toNat
  let held := fun j => (s.dline j).tag = tr.pa.extractLsb' 12 28
  TakesNewSector s va tr t ∧ (t.scache = s.scache ∨ Referenced s va tr t) ∧
  (∀ j, ∃ v, t.dline j = { s.dline j with valid := v } ∧ ∀ w, v.getLsbD w = true → (s.dline j).valid.getLsbD w = true) ∧
  (∀ j, (j ≠ k ∨ ¬held k) → ¬SynonymCopy s va tr j → t.dline j = s.dline j) ∧
  (tr.pa.toNat % 32 + n ≤ 32 → held k →
    (∀ w, Touches tr.pa n w → (t.dline k).valid.getLsbD w = false) ∧
    (¬SynonymCopy s va tr k → ∀ w, w < 8 → ¬Touches tr.pa n w →
      (t.dline k).valid.getLsbD w = (s.dline k).valid.getLsbD w)) ∧
  (tr.pa.toNat % 32 + n ≤ 32 → s.configView.smm = true → ∀ j, SynonymCopy s va tr j → j % 4 = tr.pa.toNat / 32 % 4 →
    ∀ w, Touches tr.pa n w → (t.dline j).valid.getLsbD w = false)

/-! ## When an instruction may run -/

/-- MIPS III instructions are enabled: in kernel mode always, in user mode by Status.UX (R611). -/
def UxOn (s : State) : Prop := s.user = false ∨ s.statusView.ux = true

/-- SGI-extended instructions are enabled: in kernel mode always, in user mode by Status.XX (R612). -/
def XxOn (s : State) : Prop := s.user = false ∨ s.statusView.xx = true

/-- What an instruction does where MIPS III instructions are enabled; a Reserved Instruction exception where not. -/
def NeedsUx (i : Instr) (s : State) (effect : Prop) : Prop :=
  (UxOn s → effect) ∧ (¬UxOn s → Raises i s .reservedInstruction)

/-- What an instruction does where SGI-extended instructions are enabled; a Reserved Instruction exception where not. -/
def NeedsXx (i : Instr) (s : State) (effect : Prop) : Prop :=
  (XxOn s → effect) ∧ (¬XxOn s → Raises i s .reservedInstruction)

/-- What an instruction does where coprocessor 0 is usable; a Coprocessor Unusable exception where not. -/
def NeedsCp0 (i : Instr) (s : State) (effect : Prop) : Prop :=
  (s.usable0 = true → effect) ∧ (s.usable0 = false → Raises i s (.coprocessorUnusable 0))

/-- What an instruction does where coprocessor 1 is usable; a Coprocessor Unusable exception where not. -/
def NeedsCp1 (i : Instr) (s : State) (effect : Prop) : Prop :=
  (s.usable1 = true → effect) ∧ (s.usable1 = false → Raises i s (.coprocessorUnusable 1))

/-- A register value is a sign-extended word (R220). -/
def IsWord (v : Word) : Prop := (v.setWidth 32).signExtend 64 = v

/-! ## Floating point -/

/-- The instruction completes and its only effects are the 32 bits of a floating-point register and the other parts listed.
With FR = 1 its upper half becomes unspecified (R401), with FR = 0 every other 32-bit register keeps its value (R26). -/
def WritesFprWord (i : Instr) (s : State) (r : Reg) (v : BitVec 32) (also : List Part) : Prop :=
  ∃ t, exec i s = .next t ∧ Advances s t ∧ t.fprWord r = v ∧
    (s.statusView.fr = false → ∀ q, q ≠ r → t.fprWord q = s.fprWord q) ∧ KeepsFprsBut s t (s.fprHome r) ∧
    KeepsLinkBut s t ∧ KeepsAllBut s t (.fprs :: .fprTags :: also)

/-- The instruction completes and its only effects are the 64 bits of a floating-point register and the other parts listed. -/
def WritesFpr (i : Instr) (s : State) (r : Reg) (v : Word) (also : List Part) : Prop :=
  ∃ t, exec i s = .next t ∧ Advances s t ∧ t.fprFile r = v ∧ KeepsFprsBut s t r ∧ KeepsLinkBut s t ∧
    KeepsAllBut s t (.fprs :: .fprTags :: also)

/-- The registers are legal as 64-bit or arithmetic operands: even ones when FR = 0 (R26). -/
def LegalPairs (s : State) (rs : List Reg) : Prop := s.statusView.fr = true ∨ ∀ r ∈ rs, r.getLsbD 0 = false

/-- What an instruction does when its registers are legal operands; a refusal when one of them is an odd one with FR = 0
(R26, U31). -/
def NeedsPairs (i : Instr) (s : State) (rs : List Reg) (effect : Prop) : Prop :=
  (LegalPairs s rs → effect) ∧ (¬LegalPairs s rs → exec i s = .refused .oddFprPair)

/-- The exceptions of an operation trap: precise mode, and an enabled one or E among them (R417). -/
def TrapsPrecisely (s : State) (raised : BitVec 5) (e : Bool) : Prop :=
  s.statusView.dm = true ∧ (raised &&& s.fsr.enable ≠ 0 ∨ e = true)

/-- The FSR after an operation that raised exceptions, but for the condition codes: Flags and E are cumulative, Cause
describes the operation in performance mode, the rest stays (R54, R417). -/
def RecordsExceptions (s : State) (f : Fsr) (raised : BitVec 5) (e : Bool) : Prop :=
  f.flags = s.fsr.flags ||| raised ∧ f.e = (s.fsr.e || e) ∧ (s.statusView.dm = false → f.cause = raised) ∧
    f.enable = s.fsr.enable ∧ f.fs = s.fsr.fs ∧ f.rm = s.fsr.rm

/-- A floating-point register holds a result in its format: 64 bits, or the low 32 (R401). -/
def HoldsResult (t : State) (r : Reg) (tag : FprTag) (v : Word) : Prop :=
  (tag.isDouble = true → t.fprFile r = v) ∧ (tag.isDouble = false → lowWord (t.fprFile r) = lowWord v) ∧
    t.fprTag[r.toNat]'r.isLt = tag

/-- A floating-point operation ends as R417 says, given its delivered result: with a precise trap and no result, or with the
result in its register and nothing else changed but the FSR. -/
def EndsWith (i : Instr) (s : State) (fd : Reg) (tag : FprTag) (r : FloatResult) : Prop :=
  (TrapsPrecisely s r.raised r.e → ∃ f, RecordsExceptions s f r.raised r.e ∧ f.fcc = s.fsr.fcc ∧
    exec i s = .next (takeException .floatingPoint { s with fsr := f })) ∧
  (¬TrapsPrecisely s r.raised r.e → ∃ t, exec i s = .next t ∧ Advances s t ∧ HoldsResult t fd tag r.value ∧
    KeepsFprsBut s t fd ∧ RecordsExceptions s t.fsr r.raised r.e ∧ t.fsr.fcc = s.fsr.fcc ∧
    KeepsAllBut s t [.fprs, .fprTags, .fsr])

/-- A floating-point operation of one operand. -/
def OperatesOn1 (i : Instr) (s : State) (fd fs : Reg) (src dst : FprTag) (op : FloatMode → Word → FloatResult) : Prop :=
  NeedsPairs i s [fd, fs] (EndsWith i s fd dst (op s.floatMode (s.operandIn fs src 0)))

/-- A floating-point operation of two operands. -/
def OperatesOn2 (i : Instr) (s : State) (fd fs ft : Reg) (tag : FprTag)
    (op : FloatMode → Word → Word → FloatResult) : Prop :=
  NeedsPairs i s [fd, fs, ft] (EndsWith i s fd tag (op s.floatMode (s.operandIn fs tag 0) (s.operandIn ft tag 1)))

/-- A floating-point operation of three operands: fs times ft, then fr. -/
def OperatesOn3 (i : Instr) (s : State) (fd fr fs ft : Reg) (tag : FprTag)
    (op : FloatMode → Word → Word → Word → FloatResult) : Prop :=
  NeedsPairs i s [fd, fr, fs, ft]
    (EndsWith i s fd tag (op s.floatMode (s.operandIn fs tag 0) (s.operandIn ft tag 1) (s.operandIn fr tag 2)))

/-- A compare: with a precise trap and the condition code unchanged, or with the condition code written (R440, R417). -/
def Compares (i : Instr) (s : State) (f : FloatFormat) (tag : FprTag) (cond : BitVec 4) (ft fs : Reg) (cc : CC) : Prop :=
  let r := floatCompare f s.floatMode cond (s.operandIn fs tag 0) (s.operandIn ft tag 1)
  NeedsPairs i s [fs, ft]
    ((TrapsPrecisely s r.raised r.e → ∃ g, RecordsExceptions s g r.raised r.e ∧ g.fcc = s.fsr.fcc ∧
      exec i s = .next (takeException .floatingPoint { s with fsr := g })) ∧
    (¬TrapsPrecisely s r.raised r.e → ∃ t, exec i s = .next t ∧ Advances s t ∧ t.fsr.cc cc = r.holds ∧
      (∀ n, n ≠ cc → t.fsr.cc n = s.fsr.cc n) ∧ RecordsExceptions s t.fsr r.raised r.e ∧ KeepsAllBut s t [.fsr]))

/-! ## Floating-point values (R415, R418, R419) -/

/-- The value is a finite number: its sign, which zero has too, and the real number it stands for. -/
def FloatVal.Num (v : FloatVal) (neg : Bool) (x : ℝ) : Prop :=
  ∃ m e, v = .fin neg m e ∧ x = (if neg then -1 else 1) * m * (2 : ℝ) ^ e

/-- An integer is a real number rounded: to nearest with ties to even, toward zero, toward +infinity, toward -infinity
(R54, R432). -/
def RoundsToInt (rm : BitVec 2) (x : ℝ) (n : ℤ) : Prop :=
  (rm = 0 → |x - n| ≤ 1 / 2 ∧ (|x - n| = 1 / 2 → n % 2 = 0)) ∧
  (rm = 1 → 0 ≤ x * n ∧ |(n : ℝ)| ≤ |x| ∧ |x| < |(n : ℝ)| + 1) ∧
  (rm = 2 → x ≤ n ∧ n < x + 1) ∧ (rm = 3 → n ≤ x ∧ x < n + 1)

/-- A real number is another one, not zero, rounded to a precision as if the exponent range were unbounded (R415). -/
def RoundsTo (prec : Nat) (rm : BitVec 2) (x y : ℝ) : Prop :=
  ∃ (E n : ℤ), (2 : ℝ) ^ E ≤ |x| ∧ |x| < (2 : ℝ) ^ (E + 1) ∧ RoundsToInt rm (x / (2 : ℝ) ^ (E - prec + 1)) n ∧
    y = n * (2 : ℝ) ^ (E - prec + 1)

/-- A result is a quiet NaN, with these exceptions (R419). -/
def GivesNan (f : FloatFormat) (r : FloatResult) (raised : BitVec 5) : Prop :=
  f.value r.value = .nan false ∧ r.raised = raised ∧ r.e = false

/-- A result is an infinity, with these exceptions. -/
def GivesInf (f : FloatFormat) (r : FloatResult) (neg : Bool) (raised : BitVec 5) : Prop :=
  f.value r.value = .inf neg ∧ r.raised = raised ∧ r.e = false

/-- A result is a zero, with no exception. -/
def GivesZero (f : FloatFormat) (r : FloatResult) (neg : Bool) : Prop :=
  (f.value r.value).Num neg 0 ∧ r.raised = 0 ∧ r.e = false

/-- The result of an exact value smaller than the smallest normal number (R418, D31; the flags and the free choice are those of
log 22): flushed to a zero of its sign, or E, or the smallest normal number where it rounds up to that. -/
def DeliversTiny (f : FloatFormat) (mode : FloatMode) (x : ℝ) (r : FloatResult) : Prop :=
  (mode.flush = true ∧ (∃ neg, (neg = true ↔ x < 0) ∧ (f.value r.value).Num neg 0) ∧ r.raised = Config.flushResultFlags ∧
    r.e = false) ∨
  (mode.flush = false ∧ r.raised = 0 ∧ r.e = true) ∨
  (∃ (neg : Bool) (n : ℤ), RoundsToInt mode.rm (x / (2 : ℝ) ^ (f.emin - f.prec + 1)) n ∧
    n = (if neg then -1 else 1) * 2 ^ (f.prec - 1) ∧ (f.value r.value).Num neg ((if neg then -1 else 1) * (2 : ℝ) ^ f.emin) ∧
    r.raised = flagI ∧ r.e = false)

/-- The result of an exact value whose rounding exceeds the largest finite number (R415). -/
def DeliversOverflow (f : FloatFormat) (rm : BitVec 2) (x : ℝ) (r : FloatResult) : Prop :=
  r.raised = flagO ||| flagI ∧ r.e = false ∧
  ∃ neg, (neg = true ↔ x < 0) ∧
    if rm = 0 ∨ (rm = 2 ∧ neg = false) ∨ (rm = 3 ∧ neg = true) then f.value r.value = .inf neg
    else (f.value r.value).Num neg ((if neg then -1 else 1) * (2 - (2 : ℝ) ^ (1 - f.prec : ℤ)) * (2 : ℝ) ^ f.emax)

/-- The result of an exact value that is not zero: rounded once; Inexact exactly when that changed it (R415, R418). -/
def Delivers (f : FloatFormat) (mode : FloatMode) (x : ℝ) (r : FloatResult) : Prop :=
  (|x| < (2 : ℝ) ^ f.emin → DeliversTiny f mode x r) ∧
  ((2 : ℝ) ^ f.emin ≤ |x| → ∃ y, RoundsTo f.prec mode.rm x y ∧
    ((2 : ℝ) ^ (f.emax + 1) ≤ |y| → DeliversOverflow f mode.rm x r) ∧
    (|y| < (2 : ℝ) ^ (f.emax + 1) → (∃ neg, (f.value r.value).Num neg y) ∧ (r.raised = 0 ∧ y = x ∨ r.raised = flagI ∧ y ≠ x) ∧
      r.e = false))

/-- The result of an exact value: a zero with the given sign, or the value rounded once. -/
def DeliversAny (f : FloatFormat) (mode : FloatMode) (x : ℝ) (zeroNeg : Bool) (r : FloatResult) : Prop :=
  (x = 0 → GivesZero f r zeroNeg) ∧ (x ≠ 0 → Delivers f mode x r)

/-- What an arithmetic operation does about NaN and denormalized operands: a denormalized one raises E where it is not flushed;
a signaling NaN is invalid; a quiet one gives a quiet NaN and raises nothing; else the result is the operation's own. A
flushed operand adds its flags (R418, R419; log 22). -/
def Arithmetic (src : FloatFormat) (mode : FloatMode) (ws : List Word) (r : FloatResult)
    (nan : BitVec 5 → FloatResult → Prop) (own : FloatResult → Prop) : Prop :=
  (mode.flush = false → (∃ w ∈ ws, src.denormal w = true) → r.raised = 0 ∧ r.e = true) ∧
  (mode.flush = true ∨ (∀ w ∈ ws, src.denormal w = false) → ∃ d : FloatResult,
    r = { d with raised := d.raised ||| (if ∃ w ∈ ws, src.denormal w = true then Config.flushOperandFlags else 0) } ∧
    ((∃ w ∈ ws, src.value w = .nan true) → nan flagV d) ∧
    ((∀ w ∈ ws, src.value w ≠ .nan true) → (∃ w ∈ ws, src.value w = .nan false) → nan 0 d) ∧
    ((∀ w ∈ ws, (src.value w).isNan = false) → own d))

/-- The result of a sum of two values that are no NaNs (R402). -/
def Sums (f : FloatFormat) (mode : FloatMode) (v w : FloatVal) (r : FloatResult) : Prop :=
  (∀ a b, v = .inf a → w = .inf b → (a = b → GivesInf f r a 0) ∧ (a ≠ b → GivesNan f r flagV)) ∧
  (∀ a b y, v = .inf a → w.Num b y → GivesInf f r a 0) ∧ (∀ a x b, v.Num a x → w = .inf b → GivesInf f r b 0) ∧
  (∀ a x b y, v.Num a x → w.Num b y → DeliversAny f mode (x + y) (if a = b then a else mode.rm == 3) r)

/-- The result of a product of two values that are no NaNs (R404). -/
def Multiplies (f : FloatFormat) (mode : FloatMode) (v w : FloatVal) (r : FloatResult) : Prop :=
  (∀ a b, v = .inf a → w = .inf b → GivesInf f r (a ^^ b) 0) ∧
  (∀ a b y, (v = .inf a ∧ w.Num b y) ∨ (w = .inf a ∧ v.Num b y) →
    (y = 0 → GivesNan f r flagV) ∧ (y ≠ 0 → GivesInf f r (a ^^ b) 0)) ∧
  (∀ a x b y, v.Num a x → w.Num b y → DeliversAny f mode (x * y) (a ^^ b) r)

/-- The result of a quotient of two values that are no NaNs (R405). -/
def Divides (f : FloatFormat) (mode : FloatMode) (v w : FloatVal) (r : FloatResult) : Prop :=
  (∀ a b, v = .inf a → w = .inf b → GivesNan f r flagV) ∧
  (∀ a b y, v = .inf a → w.Num b y → GivesInf f r (a ^^ b) 0) ∧
  (∀ a x b, v.Num a x → w = .inf b → GivesZero f r (a ^^ b)) ∧
  (∀ a x b y, v.Num a x → w.Num b y →
    (y = 0 → (x = 0 → GivesNan f r flagV) ∧ (x ≠ 0 → GivesInf f r (a ^^ b) flagZ)) ∧
    (y ≠ 0 → DeliversAny f mode (x / y) (a ^^ b) r))

/-- The result of a product plus a third value, none of them a NaN, with one rounding (R411). -/
def MultipliesAndAdds (f : FloatFormat) (mode : FloatMode) (v w z : FloatVal) (r : FloatResult) : Prop :=
  (∀ a b y, (v = .inf a ∧ w.Num b y) ∨ (w = .inf a ∧ v.Num b y) → y = 0 → GivesNan f r flagV) ∧
  (∀ a b, (v = .inf a ∧ w = .inf b) ∨ (∃ y, y ≠ 0 ∧ ((v = .inf a ∧ w.Num b y) ∨ (w = .inf a ∧ v.Num b y))) →
    (∀ c, z = .inf c → (c = (a ^^ b) → GivesInf f r c 0) ∧ (c ≠ (a ^^ b) → GivesNan f r flagV)) ∧
    (∀ c u, z.Num c u → GivesInf f r (a ^^ b) 0)) ∧
  (∀ a x b y, v.Num a x → w.Num b y →
    (∀ c, z = .inf c → GivesInf f r c 0) ∧
    (∀ c u, z.Num c u → DeliversAny f mode (x * y + u) (if (a ^^ b) = c then c else mode.rm == 3) r))

/-- The result of a square root of a value that is no NaN (R406). -/
def Roots (f : FloatFormat) (mode : FloatMode) (v : FloatVal) (r : FloatResult) : Prop :=
  (v = .inf false → GivesInf f r false 0) ∧ (v = .inf true → GivesNan f r flagV) ∧
  (∀ x, v.Num true x → x ≠ 0 → GivesNan f r flagV) ∧
  (∀ a x, v.Num a x → a = false ∨ x = 0 → DeliversAny f mode (Real.sqrt x) a r)

/-- A result is within a number of units in the last place of an exact value, with Inexact or nothing raised (R409, R410). -/
def Approximates (f : FloatFormat) (ulp : Nat) (x : ℝ) (r : FloatResult) : Prop :=
  (r.raised = 0 ∨ r.raised = flagI) ∧ r.e = false ∧
  ∃ (neg : Bool) (y : ℝ) (E : ℤ), (f.value r.value).Num neg y ∧ (2 : ℝ) ^ E ≤ |x| ∧ |x| < (2 : ℝ) ^ (E + 1) ∧
    |y - x| ≤ ulp * (2 : ℝ) ^ (E - f.prec + 1)

/-- The result of RECIP of a value that is no NaN; away from the ends of the exponent range the error is bounded (R409). -/
def Reciprocates (f : FloatFormat) (v : FloatVal) (r : FloatResult) : Prop :=
  (∀ a, v = .inf a → GivesZero f r a) ∧ (∀ a, v.Num a 0 → GivesInf f r a flagZ) ∧
  (∀ a x, v.Num a x → (2 : ℝ) ^ (f.emin + 1) ≤ |1 / x| → |1 / x| < (2 : ℝ) ^ (f.emax - 1) →
    Approximates f Config.recipUlp (1 / x) r)

/-- The result of RSQRT of a value that is no NaN (R410); the sign of the infinity of minus zero is open. -/
def RootReciprocates (f : FloatFormat) (v : FloatVal) (r : FloatResult) : Prop :=
  (v = .inf false → GivesZero f r false) ∧ (v = .inf true → GivesNan f r flagV) ∧
  (∀ a, v.Num a 0 → ∃ b, GivesInf f r b flagZ ∧ (a = false → b = false)) ∧
  (∀ x, v.Num true x → x ≠ 0 → GivesNan f r flagV) ∧
  (∀ x, v.Num false x → x ≠ 0 → Approximates f Config.rsqrtUlp (1 / Real.sqrt x) r)

/-- The result of a conversion to an integer of a value that is no NaN (R432): the rounded integer, or Invalid where none fits;
the integer is then free (log 25). -/
def Integers (rm : BitVec 2) (bits : Nat) (v : FloatVal) (r : FloatResult) : Prop :=
  (∀ a, v = .inf a → r.raised = flagV ∧ r.e = false) ∧
  (∀ a x, v.Num a x → ∃ n : ℤ, RoundsToInt rm x n ∧ r.e = false ∧
    (-2 ^ (bits - 1) ≤ n ∧ n < 2 ^ (bits - 1) → r.value = BitVec.ofInt 64 n ∧ (r.raised = 0 ∧ (n : ℝ) = x ∨ r.raised = flagI ∧ (n : ℝ) ≠ x)) ∧
    (¬(-2 ^ (bits - 1) ≤ n ∧ n < 2 ^ (bits - 1)) → r.raised = flagV))

end Sys2Proof.Machine
end

