-- ==== Sys2Proof/Certificates/Slice0/Obligations.lean ====
section
/-! DEFINITION. The statements for the provers. -/

open Sys2Proof Sys2Proof.Machine

/-- Decoding an encoded instruction gives it back, with every operand at every value. (30_encoding.md R171 to R182, R189.)

For every well-formed instruction i (every term but SLL r0, r0, 1, whose word is SSNOP), decoding the word that encode writes for i gives i; and decoding its four bytes, with any bytes after them, gives i and leaves the rest. -/
def Obligations.DecodeReadsEncode : Prop :=
  ∀ i : Instr, i.wellFormed = true →
    decodeWord (encode i) = .ok i ∧
    ∀ rest : List Byte, decodeBytes (bytesOfWord (encode i) ++ rest) = .ok (i, rest)

/-- No bit of a word is dropped: a word that decodes is the encoding of what it decodes to. (30_encoding.md R172, R183 to R189.)

For every 32-bit word w and instruction i, if w decodes to i then i is well formed and encode i is w: the decoder ignores no bit and accepts no word twice. -/
def Obligations.EncodeReadsDecode : Prop :=
  ∀ (w : IWord) (i : Instr), decodeWord w = .ok i → i.wellFormed = true ∧ encode i = w

/-- Words written out in the spec decode to the instructions it names. (30_encoding.md R171 to R182, 95_test_vectors.md.)

The words the spec prints for add, addi, sra, movf, mult, lw, swl, beq, bgezal, teq, add.s, c.lt.d, bc1t, dmfc0, eret and SSNOP decode to those instructions with the operands it prints, and the MFC0 word (rs 00000) is refused by name. -/
def Obligations.DecodeKnownWords : Prop :=
  Decodes 0x01095020 (.add 8 9 10) ∧
    Decodes 0x2109ffff (.addi 8 9 0xffff) ∧
    Decodes 0x00095103 (.sra 9 10 4) ∧
    Decodes 0x01045001 (.movf 8 1 10) ∧
    Decodes 0x01090018 (.mult 8 9) ∧
    Decodes 0x8c88fffc (.lw 4 8 0xfffc) ∧
    Decodes 0xa8880001 (.swl 4 8 1) ∧
    Decodes 0x11090004 (.beq 8 9 4) ∧
    Decodes 0x05110004 (.bgezal 8 4) ∧
    Decodes 0x00000034 (.teq 0 0 0) ∧
    Decodes 0x46062080 (.addS 6 4 2) ∧
    Decodes 0x4626203c (.cLtD 6 4 0) ∧
    Decodes 0x45050003 (.bc1t 1 3) ∧
    Decodes 0x403b4000 (.dmfc0 27 8) ∧
    Decodes 0x42000018 .eret ∧
    Decodes 0x00000040 .ssnop ∧
    decodeWord 0x40020000 = .error .reservedFunction

/-- A word that is no instruction raises Coprocessor Unusable by its opcode, else Reserved Instruction. (30_encoding.md R183, R184, 60_exceptions.md R571, R572.)

When a fetched word does not decode, running it takes an exception: Coprocessor Unusable with unit 0 for major opcode COP0 where coprocessor 0 is not usable; with unit 1 for COP1, COP1X and SPECIAL funct 1 where coprocessor 1 is not usable; Reserved Instruction in every other case. -/
def Obligations.UndecodedWordRaises : Prop :=
  ∀ (s : State) (w : IWord) (x : DecodeError), decodeWord w = .error x →
    (w.extractLsb' 26 6 = 16 → s.usable0 = false → runWord w s = .next (takeException (.coprocessorUnusable 0) s)) ∧
    (w.extractLsb' 26 6 = 16 → s.usable0 = true → runWord w s = .next (takeException .reservedInstruction s)) ∧
    ((w.extractLsb' 26 6 = 17 ∨ w.extractLsb' 26 6 = 19 ∨ (w.extractLsb' 26 6 = 0 ∧ w.extractLsb' 0 6 = 1)) →
      s.usable1 = false → runWord w s = .next (takeException (.coprocessorUnusable 1) s)) ∧
    ((w.extractLsb' 26 6 = 17 ∨ w.extractLsb' 26 6 = 19 ∨ (w.extractLsb' 26 6 = 0 ∧ w.extractLsb' 0 6 = 1)) →
      s.usable1 = true → runWord w s = .next (takeException .reservedInstruction s)) ∧
    (w.extractLsb' 26 6 ≠ 16 → w.extractLsb' 26 6 ≠ 17 → w.extractLsb' 26 6 ≠ 19 →
      ¬(w.extractLsb' 26 6 = 0 ∧ w.extractLsb' 0 6 = 1) → runWord w s = .next (takeException .reservedInstruction s))

/-- A step runs the instruction it fetches. (43_branch_jump.md R341, 60_exceptions.md R590, 70_reset_and_hazards.md R660.)

Between two instructions the machine does State.boundary. When then no NMI and no interrupt is taken, the fetch gives a word that decodes to i, and i keeps the distances of the hazard table, the step is exec i at the fetched state, with the next draw of free values and with i noted in the hazard record. The draws and the record are the model's own (logs 12 and 46). -/
def Obligations.StepRunsDecodedInstruction : Prop :=
  ∀ (s u : State) (w : IWord) (i : Instr),
    s.boundary.nmiTaken = false → s.boundary.interrupted = false →
    s.boundary.fetch = .ok (w, u) → decodeWord w = .ok i → u.draw.hazardViolation i = false →
    step s = exec i (u.draw.recordHazards i)

/-- A fetch: the word of the instruction cache line it hits, else the big-endian word at the translated address, or an exception. (20_memory.md R108, R123, R142, R152, R154, R155, 92_eei_decisions.md D16, 20_memory.md R103, R114, R142, 60_exceptions.md R566, R580, 43_branch_jump.md R341.)

For a word-aligned legal program counter. The instruction cache hits when the line of bits 13 to 5 is valid, holds the address of the line and its IASID is ICache.IASID (outside regions 10 and 11, where the comparison of IASID is open, and inside no window of a late write); that the tag it holds is bits 63 to 14 of the address is the model's deduction (R152 does not say which bits form it; log 41); the fetch then gives the word of the line that bits 4 to 2 select and changes nothing. Where it does not hit and the address translates, memory standing at the four bytes, the fetched word is the big-endian word of memory there (R123; that code stored in little endian is fetched so too, where D16 leaves data of the other order undefined, is the model's choice, log 40); an uncached fetch changes nothing but the instruction cache, a cachable one besides it only the streaming cache, and with a repair there the data cache and LLbit (log 43). What the translation raises, refuses or faults on, the fetch passes on. When no NMI or interrupt is taken and the program counter is not word aligned, or not a legal address of the mode, the step takes the Address Error exception of a fetch, with VAddr the program counter and ExcCode 4. The entry is that of every exception: for a bad fetch in a delay slot it saves, with EXL = 0, EPC = PC - 4 and BD = 1, as R580 and R341 say, where R566 and R114 give EPC the bad PC and R566 BD = 0; that it follows R580 is the model's choice (log 32). -/
def Obligations.InstructionFetch : Prop :=
  (∀ s : State, s.pc.extractLsb' 0 2 = 0 → legalAddress s.pc s.user = true →
    let l := s.iline (s.pc.extractLsb' 5 9).toNat
    (s.pc.extractLsb' 62 2 ≠ 2 → s.pc.extractLsb' 62 2 ≠ 3 → s.late.iasid = none →
      (s.icacheHit s.pc = true ↔ l.valid = true ∧ l.tag = s.pc.extractLsb' 14 50 ∧ l.iasid = s.cp0.iasid)) ∧
    (s.icacheHit s.pc = true → l.valid = true ∧
      s.fetch = .ok (l.words.toList.getD (s.pc.extractLsb' 2 3).toNat 0, s)) ∧
    (s.icacheHit s.pc = false →
      (∀ t, s.translate .fetch s.pc false = .ok t →
        ∃ w u, s.fetch = .ok (w, u) ∧ u.pc = s.pc ∧ u.npc = s.npc ∧ u.inSlot = s.inSlot ∧
          ((∀ k, k < 4 → s.backedAt (t.pa.toNat + k) = true) →
            w = wordOfBytes (Memory.read s.mem t.pa.toNat) (Memory.read s.mem (t.pa.toNat + 1))
              (Memory.read s.mem (t.pa.toNat + 2)) (Memory.read s.mem (t.pa.toNat + 3))) ∧
          (t.c ≠ 3 → t.c ≠ 4 → t.c ≠ 5 → KeepsAllBut s u [.icache]) ∧
          KeepsLinkBut s u ∧ KeepsAllBut s u [.icache, .dcache, .scache, .llbit]) ∧
      (∀ e, s.translate .fetch s.pc false = .raise e → s.fetch = .raise e) ∧
      (∀ r, s.translate .fetch s.pc false = .refuse r → s.fetch = .refuse r) ∧
      (∀ f, s.translate .fetch s.pc false = .fault f → s.fetch = .fault f))) ∧
  (∀ s : State, s.boundary.nmiTaken = false → s.boundary.interrupted = false →
    (s.boundary.pc.extractLsb' 0 2 ≠ 0 ∨ legalAddress s.boundary.pc s.boundary.user = false) →
    ∃ t, step s = .next t ∧ t = takeException (.addressErrorLoad s.boundary.pc) s.boundary ∧
      t.cp0.vAddr = s.boundary.pc ∧ t.cp0.cause.excCode = 4)

/-- Every step keeps every table canonical and the program sequential outside a delay slot. (10_state.md R55 to R58, 43_branch_jump.md R341.)

For every state in which memory, its byte-order record, the TLB and the three caches have their canonical form and in which NPC is PC + 4 outside a delay slot, if the step gives a next state then all of this holds of it. The forms are the model's own (logs 8 to 10). -/
def Obligations.TablesStayCanonical : Prop :=
  ∀ s t : State, Canonical s → Sequential s → step s = .next t → Canonical t ∧ Sequential t

/-- The state after reset has every table canonical and is sequential. (R70, R640, R341.)

At State.reset memory, the byte-order record, the TLB and the caches have their canonical form, and NPC is PC + 4 with no delay slot pending. -/
def Obligations.ResetHoldsInvariant : Prop :=
  Canonical State.reset ∧ Sequential State.reset

/-- What the spec states of reset: the vector, sequencing, Config and Cause.NMI. (R70, R640, R47, R341.)

After reset PC is 0x9000_0000_1fc0_0000, NPC is PC + 4, no delay slot is pending, Cause.NMI is 0, Config.BE, ICE and SMM are 1 and PM is 0. The values of all other registers are the model's choice (logs 3 to 9) and nothing is claimed of them. -/
def Obligations.ResetState : Prop :=
  State.reset.pc = 0x900000001fc00000 ∧ State.reset.npc = 0x900000001fc00004 ∧ State.reset.inSlot = false ∧
    State.reset.cp0.cause.nmi = false ∧ State.reset.cp0.config = { be := true, pm := false, ice := true, smm := true }

/-- r0 reads as zero, a write to it is discarded, and a register keeps what was written to it. (10_state.md R20.)

In every state r0 reads 0; a write to r0 changes nothing at all; after a write to any other register it reads the written value and every other register reads what it did. -/
def Obligations.ZeroRegister : Prop :=
  ∀ (s : State) (v : Word),
    s.reg 0 = 0 ∧ s.setReg 0 v = s ∧
    ∀ r q : Reg, r ≠ 0 → (s.setReg r v).reg r = v ∧ (q ≠ r → (s.setReg r v).reg q = s.reg q)

/-- AND, OR, XOR, NOR, SLT, SLTU and their immediate forms, and LUI: encoding, result, completion, frame. (R212, R213, R214, R215, R223, R224, R216, R217, R218, R219, R225, R226.) -/
def Obligations.LogicalAndCompare : Prop :=
  (∀ (s : State) (rs rt rd : Reg),
    Decodes (rType 0 rs rt rd 0 36) (.and rs rt rd) ∧
    WritesReg (.and rs rt rd) s rd (s.reg rs &&& s.reg rt) ∧
    Decodes (rType 0 rs rt rd 0 37) (.or rs rt rd) ∧
    WritesReg (.or rs rt rd) s rd (s.reg rs ||| s.reg rt) ∧
    Decodes (rType 0 rs rt rd 0 38) (.xor rs rt rd) ∧
    WritesReg (.xor rs rt rd) s rd (s.reg rs ^^^ s.reg rt) ∧
    Decodes (rType 0 rs rt rd 0 39) (.nor rs rt rd) ∧
    WritesReg (.nor rs rt rd) s rd (~~~(s.reg rs ||| s.reg rt)) ∧
    Decodes (rType 0 rs rt rd 0 42) (.slt rs rt rd) ∧
    WritesReg (.slt rs rt rd) s rd (if (s.reg rs).toInt < (s.reg rt).toInt then 1 else 0) ∧
    Decodes (rType 0 rs rt rd 0 43) (.sltu rs rt rd) ∧
    WritesReg (.sltu rs rt rd) s rd (if (s.reg rs).toNat < (s.reg rt).toNat then 1 else 0)) ∧
  (∀ (s : State) (rs rt : Reg) (imm : BitVec 16),
    Decodes (iType 12 rs rt imm) (.andi rs rt imm) ∧
    WritesReg (.andi rs rt imm) s rt (s.reg rs &&& imm.setWidth 64) ∧
    Decodes (iType 13 rs rt imm) (.ori rs rt imm) ∧
    WritesReg (.ori rs rt imm) s rt (s.reg rs ||| imm.setWidth 64) ∧
    Decodes (iType 14 rs rt imm) (.xori rs rt imm) ∧
    WritesReg (.xori rs rt imm) s rt (s.reg rs ^^^ imm.setWidth 64) ∧
    Decodes (iType 10 rs rt imm) (.slti rs rt imm) ∧
    WritesReg (.slti rs rt imm) s rt (if (s.reg rs).toInt < imm.toInt then 1 else 0) ∧
    Decodes (iType 11 rs rt imm) (.sltiu rs rt imm) ∧
    WritesReg (.sltiu rs rt imm) s rt (if (s.reg rs).toNat < (imm.signExtend 64).toNat then 1 else 0) ∧
    Decodes (iType 15 0 rt imm) (.lui rt imm) ∧
    WritesReg (.lui rt imm) s rt (BitVec.ofInt 64 (imm.toInt * 65536)))

/-- Word adds and subtracts: the wrapped result of the unsigned forms, Integer Overflow of ADD, ADDI and SUB. (40_int_alu.md R202, R203, R208, 40_int_alu.md R220, 40_int_alu.md R200, R201, R207, R222, 92_eei_decisions.md D27.)

For all registers: when the source registers hold sign-extended words, the result is the 32-bit sum or difference, wrapped and sign extended, in the destination, and nothing else changes. When a source register holds no sign-extended word the result is unspecified (R220); that the instruction then completes with some value in the destination and nothing else changed is the model's choice (log 16). For all registers holding sign-extended words: when the exact sum or difference fits a 32-bit signed integer the destination gets it and nothing else changes; otherwise the instruction takes the Integer Overflow exception. That ADD, ADDI and SUB complete and never overflow on a source register that holds no sign-extended word, with some value in the destination and nothing else changed, is the model's choice (R220 with D27, log 16). -/
def Obligations.WordAddSubtract : Prop :=
  (∀ (s : State) (rs rt rd : Reg) (imm : BitVec 16),
    Decodes (rType 0 rs rt rd 0 33) (.addu rs rt rd) ∧
    Decodes (iType 9 rs rt imm) (.addiu rs rt imm) ∧
    Decodes (rType 0 rs rt rd 0 35) (.subu rs rt rd) ∧
    (IsWord (s.reg rs) → IsWord (s.reg rt) →
      WritesReg (.addu rs rt rd) s rd ((BitVec.ofInt 32 ((s.reg rs).toInt + (s.reg rt).toInt)).signExtend 64)) ∧
    (IsWord (s.reg rs) → WritesReg (.addiu rs rt imm) s rt ((BitVec.ofInt 32 ((s.reg rs).toInt + imm.toInt)).signExtend 64)) ∧
    (IsWord (s.reg rs) → IsWord (s.reg rt) →
      WritesReg (.subu rs rt rd) s rd ((BitVec.ofInt 32 ((s.reg rs).toInt - (s.reg rt).toInt)).signExtend 64)) ∧
    (∃ v, WritesReg (.addu rs rt rd) s rd v) ∧
    (∃ v, WritesReg (.addiu rs rt imm) s rt v) ∧
    (∃ v, WritesReg (.subu rs rt rd) s rd v)) ∧
  (∀ (s : State) (rs rt rd : Reg) (imm : BitVec 16),
    Decodes (rType 0 rs rt rd 0 32) (.add rs rt rd) ∧
    Decodes (iType 8 rs rt imm) (.addi rs rt imm) ∧
    Decodes (rType 0 rs rt rd 0 34) (.sub rs rt rd) ∧
    (IsWord (s.reg rs) → IsWord (s.reg rt) →
      (-(2 ^ 31 : Int) ≤ (s.reg rs).toInt + (s.reg rt).toInt ∧ (s.reg rs).toInt + (s.reg rt).toInt < (2 ^ 31 : Int) → WritesReg (.add rs rt rd) s rd (BitVec.ofInt 64 ((s.reg rs).toInt + (s.reg rt).toInt))) ∧
      (¬(-(2 ^ 31 : Int) ≤ (s.reg rs).toInt + (s.reg rt).toInt ∧ (s.reg rs).toInt + (s.reg rt).toInt < (2 ^ 31 : Int)) → Raises (.add rs rt rd) s .overflow)) ∧
    (IsWord (s.reg rs) →
      (-(2 ^ 31 : Int) ≤ (s.reg rs).toInt + imm.toInt ∧ (s.reg rs).toInt + imm.toInt < (2 ^ 31 : Int) → WritesReg (.addi rs rt imm) s rt (BitVec.ofInt 64 ((s.reg rs).toInt + imm.toInt))) ∧
      (¬(-(2 ^ 31 : Int) ≤ (s.reg rs).toInt + imm.toInt ∧ (s.reg rs).toInt + imm.toInt < (2 ^ 31 : Int)) → Raises (.addi rs rt imm) s .overflow)) ∧
    (IsWord (s.reg rs) → IsWord (s.reg rt) →
      (-(2 ^ 31 : Int) ≤ (s.reg rs).toInt - (s.reg rt).toInt ∧ (s.reg rs).toInt - (s.reg rt).toInt < (2 ^ 31 : Int) → WritesReg (.sub rs rt rd) s rd (BitVec.ofInt 64 ((s.reg rs).toInt - (s.reg rt).toInt))) ∧
      (¬(-(2 ^ 31 : Int) ≤ (s.reg rs).toInt - (s.reg rt).toInt ∧ (s.reg rs).toInt - (s.reg rt).toInt < (2 ^ 31 : Int)) → Raises (.sub rs rt rd) s .overflow)) ∧
    (¬(IsWord (s.reg rs) ∧ IsWord (s.reg rt)) → ∃ v, WritesReg (.add rs rt rd) s rd v) ∧
    (¬IsWord (s.reg rs) → ∃ v, WritesReg (.addi rs rt imm) s rt v) ∧
    (¬(IsWord (s.reg rs) ∧ IsWord (s.reg rt)) → ∃ v, WritesReg (.sub rs rt rd) s rd v))

/-- Doubleword adds and subtracts: the result modulo 2^64, Integer Overflow of DADD, DADDI and DSUB. (R206, R209, R211, R204, R205, R210, R570.) -/
def Obligations.DoublewordAddSubtract : Prop :=
  (∀ (s : State) (rs rt rd : Reg) (imm : BitVec 16),
    Decodes (rType 0 rs rt rd 0 45) (.daddu rs rt rd) ∧
    Decodes (iType 25 rs rt imm) (.daddiu rs rt imm) ∧
    Decodes (rType 0 rs rt rd 0 47) (.dsubu rs rt rd) ∧
    NeedsUx (.daddu rs rt rd) s (WritesReg (.daddu rs rt rd) s rd (BitVec.ofNat 64 ((s.reg rs).toNat + (s.reg rt).toNat))) ∧
    NeedsUx (.daddiu rs rt imm) s (WritesReg (.daddiu rs rt imm) s rt (BitVec.ofInt 64 ((s.reg rs).toInt + imm.toInt))) ∧
    NeedsUx (.dsubu rs rt rd) s (WritesReg (.dsubu rs rt rd) s rd (BitVec.ofInt 64 ((s.reg rs).toInt - (s.reg rt).toInt)))) ∧
  (∀ (s : State) (rs rt rd : Reg) (imm : BitVec 16),
    Decodes (rType 0 rs rt rd 0 44) (.dadd rs rt rd) ∧
    Decodes (iType 24 rs rt imm) (.daddi rs rt imm) ∧
    Decodes (rType 0 rs rt rd 0 46) (.dsub rs rt rd) ∧
    NeedsUx (.dadd rs rt rd) s
      ((-(2 ^ 63 : Int) ≤ (s.reg rs).toInt + (s.reg rt).toInt ∧ (s.reg rs).toInt + (s.reg rt).toInt < (2 ^ 63 : Int) → WritesReg (.dadd rs rt rd) s rd (BitVec.ofInt 64 ((s.reg rs).toInt + (s.reg rt).toInt))) ∧
        (¬(-(2 ^ 63 : Int) ≤ (s.reg rs).toInt + (s.reg rt).toInt ∧ (s.reg rs).toInt + (s.reg rt).toInt < (2 ^ 63 : Int)) → Raises (.dadd rs rt rd) s .overflow)) ∧
    NeedsUx (.daddi rs rt imm) s
      ((-(2 ^ 63 : Int) ≤ (s.reg rs).toInt + imm.toInt ∧ (s.reg rs).toInt + imm.toInt < (2 ^ 63 : Int) → WritesReg (.daddi rs rt imm) s rt (BitVec.ofInt 64 ((s.reg rs).toInt + imm.toInt))) ∧
        (¬(-(2 ^ 63 : Int) ≤ (s.reg rs).toInt + imm.toInt ∧ (s.reg rs).toInt + imm.toInt < (2 ^ 63 : Int)) → Raises (.daddi rs rt imm) s .overflow)) ∧
    NeedsUx (.dsub rs rt rd) s
      ((-(2 ^ 63 : Int) ≤ (s.reg rs).toInt - (s.reg rt).toInt ∧ (s.reg rs).toInt - (s.reg rt).toInt < (2 ^ 63 : Int) → WritesReg (.dsub rs rt rd) s rd (BitVec.ofInt 64 ((s.reg rs).toInt - (s.reg rt).toInt))) ∧
        (¬(-(2 ^ 63 : Int) ≤ (s.reg rs).toInt - (s.reg rt).toInt ∧ (s.reg rs).toInt - (s.reg rt).toInt < (2 ^ 63 : Int)) → Raises (.dsub rs rt rd) s .overflow)) ∧
    Exc.overflow.code = 12)

/-- SLL, SRL, SRA, SLLV, SRLV and SRAV: the shifted word, sign extended. (40_int_alu.md R230 to R235, 40_int_alu.md R220, 92_eei_decisions.md D27.)

The words decode (SLL r0, r0, 1 is SSNOP). SLL and SLLV shift the low word of any value left and sign extend. SRL, SRLV divide the unsigned low word and SRA, SRAV the signed word by the power of two, rounding down, when rt (and rs, for the variable forms) holds a sign-extended word; the variable forms use the five low bits of rs. Only rd changes, also where a source register holds no sign-extended word: that SRL, SRA, SRLV and SRAV then complete with some value is the model's choice (R220 with D27, log 16). -/
def Obligations.WordShifts : Prop :=
  ∀ (s : State) (rs rt rd : Reg) (sa : BitVec 5),
    (¬(rt = 0 ∧ rd = 0 ∧ sa = 1) → Decodes (rType 0 0 rt rd sa 0) (.sll rt rd sa)) ∧
    Decodes (rType 0 0 rt rd sa 2) (.srl rt rd sa) ∧
    Decodes (rType 0 0 rt rd sa 3) (.sra rt rd sa) ∧
    Decodes (rType 0 rs rt rd 0 4) (.sllv rs rt rd) ∧
    Decodes (rType 0 rs rt rd 0 6) (.srlv rs rt rd) ∧
    Decodes (rType 0 rs rt rd 0 7) (.srav rs rt rd) ∧
    WritesReg (.sll rt rd sa) s rd (((s.reg rt).setWidth 32 <<< sa.toNat).signExtend 64) ∧
    WritesReg (.sllv rs rt rd) s rd (((s.reg rt).setWidth 32 <<< ((s.reg rs).toNat % 32)).signExtend 64) ∧
    (IsWord (s.reg rt) → WritesReg (.srl rt rd sa) s rd ((BitVec.ofNat 32 (((s.reg rt).setWidth 32).toNat / 2 ^ sa.toNat)).signExtend 64)) ∧
    (IsWord (s.reg rs) → IsWord (s.reg rt) → WritesReg (.srlv rs rt rd) s rd ((BitVec.ofNat 32 (((s.reg rt).setWidth 32).toNat / 2 ^ ((s.reg rs).toNat % 32))).signExtend 64)) ∧
    (IsWord (s.reg rt) → WritesReg (.sra rt rd sa) s rd (BitVec.ofInt 64 ((s.reg rt).toInt / 2 ^ sa.toNat))) ∧
    (IsWord (s.reg rs) → IsWord (s.reg rt) → WritesReg (.srav rs rt rd) s rd (BitVec.ofInt 64 ((s.reg rt).toInt / 2 ^ ((s.reg rs).toNat % 32)))) ∧
    (∃ v, WritesReg (.srl rt rd sa) s rd v) ∧
    (∃ v, WritesReg (.srlv rs rt rd) s rd v) ∧
    (∃ v, WritesReg (.sra rt rd sa) s rd v) ∧
    (∃ v, WritesReg (.srav rs rt rd) s rd v)

/-- The nine doubleword shifts: result, completion, frame, and Reserved Instruction where not enabled. (R236, R237, R238, R239, R240, R241, R242, R243, R244.) -/
def Obligations.DoublewordShifts : Prop :=
  ∀ (s : State) (rs rt rd : Reg) (sa : BitVec 5),
    Decodes (rType 0 0 rt rd sa 56) (.dsll rt rd sa) ∧
    NeedsUx (.dsll rt rd sa) s (WritesReg (.dsll rt rd sa) s rd (s.reg rt <<< sa.toNat)) ∧
    Decodes (rType 0 0 rt rd sa 58) (.dsrl rt rd sa) ∧
    NeedsUx (.dsrl rt rd sa) s (WritesReg (.dsrl rt rd sa) s rd (BitVec.ofNat 64 ((s.reg rt).toNat / 2 ^ sa.toNat))) ∧
    Decodes (rType 0 0 rt rd sa 59) (.dsra rt rd sa) ∧
    NeedsUx (.dsra rt rd sa) s (WritesReg (.dsra rt rd sa) s rd (BitVec.ofInt 64 ((s.reg rt).toInt / 2 ^ sa.toNat))) ∧
    Decodes (rType 0 0 rt rd sa 60) (.dsll32 rt rd sa) ∧
    NeedsUx (.dsll32 rt rd sa) s (WritesReg (.dsll32 rt rd sa) s rd (s.reg rt <<< (sa.toNat + 32))) ∧
    Decodes (rType 0 0 rt rd sa 62) (.dsrl32 rt rd sa) ∧
    NeedsUx (.dsrl32 rt rd sa) s (WritesReg (.dsrl32 rt rd sa) s rd (BitVec.ofNat 64 ((s.reg rt).toNat / 2 ^ (sa.toNat + 32)))) ∧
    Decodes (rType 0 0 rt rd sa 63) (.dsra32 rt rd sa) ∧
    NeedsUx (.dsra32 rt rd sa) s (WritesReg (.dsra32 rt rd sa) s rd (BitVec.ofInt 64 ((s.reg rt).toInt / 2 ^ (sa.toNat + 32)))) ∧
    Decodes (rType 0 rs rt rd 0 20) (.dsllv rs rt rd) ∧
    NeedsUx (.dsllv rs rt rd) s (WritesReg (.dsllv rs rt rd) s rd (s.reg rt <<< ((s.reg rs).toNat % 64))) ∧
    Decodes (rType 0 rs rt rd 0 22) (.dsrlv rs rt rd) ∧
    NeedsUx (.dsrlv rs rt rd) s (WritesReg (.dsrlv rs rt rd) s rd (BitVec.ofNat 64 ((s.reg rt).toNat / 2 ^ ((s.reg rs).toNat % 64)))) ∧
    Decodes (rType 0 rs rt rd 0 23) (.dsrav rs rt rd) ∧
    NeedsUx (.dsrav rs rt rd) s (WritesReg (.dsrav rs rt rd) s rd (BitVec.ofInt 64 ((s.reg rt).toInt / 2 ^ ((s.reg rs).toNat % 64))))

/-- MOVZ, MOVN, MOVF and MOVT: the move is performed exactly when its condition holds. (40_int_alu.md R260 to R263, 70_reset_and_hazards.md R670, 60_exceptions.md R612.)

Each word decodes to its instruction. Where the instruction is enabled (CU1 for MOVF and MOVT, and XX or kernel mode) rd gets rs when the condition holds, and nothing changes when it does not; one of the two happens also when the condition code was written by the instruction just before (its value is then undefined, R670). Which codes those are is the model's record fccBusy, which also takes in the codes that a CTC1 changed: the model's choice (log 28). Otherwise Coprocessor Unusable or Reserved Instruction is taken. -/
def Obligations.IntegerConditionalMoves : Prop :=
  ∀ (s : State) (rs rt rd : Reg) (cc : CC),
    Decodes (rType 0 rs rt rd 0 10) (.movz rs rt rd) ∧
    Decodes (rType 0 rs rt rd 0 11) (.movn rs rt rd) ∧
    Decodes (rType 0 rs (cc ++ 0#2) rd 0 1) (.movf rs cc rd) ∧
    Decodes (rType 0 rs (cc ++ 1#2) rd 0 1) (.movt rs cc rd) ∧
    NeedsXx (.movz rs rt rd) s
      (((s.reg rt = 0) → WritesReg (.movz rs rt rd) s rd (s.reg rs)) ∧ (¬(s.reg rt = 0) → DoesNothing (.movz rs rt rd) s)) ∧
    NeedsXx (.movn rs rt rd) s
      (((s.reg rt ≠ 0) → WritesReg (.movn rs rt rd) s rd (s.reg rs)) ∧ (¬(s.reg rt ≠ 0) → DoesNothing (.movn rs rt rd) s)) ∧
    NeedsCp1 (.movf rs cc rd) s (NeedsXx (.movf rs cc rd) s (s.fccBusy.getLsbD cc.toNat = false →
      ((s.fsr.cc cc = false) → WritesReg (.movf rs cc rd) s rd (s.reg rs)) ∧ (¬(s.fsr.cc cc = false) → DoesNothing (.movf rs cc rd) s))) ∧
    NeedsCp1 (.movt rs cc rd) s (NeedsXx (.movt rs cc rd) s (s.fccBusy.getLsbD cc.toNat = false →
      ((s.fsr.cc cc = true) → WritesReg (.movt rs cc rd) s rd (s.reg rs)) ∧ (¬(s.fsr.cc cc = true) → DoesNothing (.movt rs cc rd) s))) ∧
    NeedsCp1 (.movf rs cc rd) s (NeedsXx (.movf rs cc rd) s
      (WritesReg (.movf rs cc rd) s rd (s.reg rs) ∨ DoesNothing (.movf rs cc rd) s)) ∧
    NeedsCp1 (.movt rs cc rd) s (NeedsXx (.movt rs cc rd) s
      (WritesReg (.movt rs cc rd) s rd (s.reg rs) ∨ DoesNothing (.movt rs cc rd) s))

/-- Multiplies, divides and the moves of HI and LO: exact products, truncated quotients, no exception of their own. (41_muldiv.md R270, R271, R274, R275, 40_int_alu.md R220, 60_exceptions.md R611, 41_muldiv.md R272, R273, R276, R277, R278, 41_muldiv.md R280 to R283, 41_muldiv.md R279, 92_eei_decisions.md D28.)

Each word decodes to its instruction. The word forms, on sign-extended words, put the sign-extended upper and lower 32 bits of the exact signed or unsigned product in HI and LO, and on other operands complete with some HI and LO (R220; the model's choice, log 16); the doubleword forms put the upper and lower 64 bits of the 128-bit product there, and take Reserved Instruction where MIPS III is not enabled (R611). No other register, flag or byte of memory changes. Each word decodes to its instruction. For a divisor that is not 0, and not the most negative dividend by -1, LO gets the quotient truncated toward zero and HI the remainder with the sign of the dividend (signed) or the unsigned quotient and remainder. They take no exception of their own (R278); DDIV and DDIVU take Reserved Instruction where MIPS III is not enabled (R611). In the corner cases they complete with some HI and LO (the model's choice, log 17), and so do the word forms on operands that are no words (log 16). Nothing else changes. Each word decodes to its instruction. MFHI and MFLO put HI or LO in rd and change nothing else (the model's record that a result waits is cleared, log 18). MTHI and MTLO write HI or LO from rs; the other one keeps its value unless a multiply or divide result waits unread, when it becomes undefined (R279 (b) with D28; the record of the waiting result is the model's, log 18); nothing else changes. -/
def Obligations.MultiplyDivideHiLo : Prop :=
  (∀ (s : State) (rs rt : Reg),
    Decodes (rType 0 rs rt 0 0 24) (.mult rs rt) ∧
    Decodes (rType 0 rs rt 0 0 25) (.multu rs rt) ∧
    Decodes (rType 0 rs rt 0 0 28) (.dmult rs rt) ∧
    Decodes (rType 0 rs rt 0 0 29) (.dmultu rs rt) ∧
    (IsWord (s.reg rs) → IsWord (s.reg rt) → WritesHiLo (.mult rs rt) s ((((BitVec.ofInt 64 ((s.reg rs).toInt * (s.reg rt).toInt)).extractLsb' 32 32).signExtend 64)) ((((BitVec.ofInt 64 ((s.reg rs).toInt * (s.reg rt).toInt)).extractLsb' 0 32).signExtend 64))) ∧
    (IsWord (s.reg rs) → IsWord (s.reg rt) → WritesHiLo (.multu rs rt) s ((((BitVec.ofNat 64 (((s.reg rs).setWidth 32).toNat * ((s.reg rt).setWidth 32).toNat)).extractLsb' 32 32).signExtend 64)) ((((BitVec.ofNat 64 (((s.reg rs).setWidth 32).toNat * ((s.reg rt).setWidth 32).toNat)).extractLsb' 0 32).signExtend 64))) ∧
    (∃ hi lo, WritesHiLo (.mult rs rt) s hi lo) ∧
    (∃ hi lo, WritesHiLo (.multu rs rt) s hi lo) ∧
    NeedsUx (.dmult rs rt) s (WritesHiLo (.dmult rs rt) s ((BitVec.ofInt 128 ((s.reg rs).toInt * (s.reg rt).toInt)).extractLsb' 64 64) ((BitVec.ofInt 128 ((s.reg rs).toInt * (s.reg rt).toInt)).extractLsb' 0 64)) ∧
    NeedsUx (.dmultu rs rt) s (WritesHiLo (.dmultu rs rt) s ((BitVec.ofNat 128 ((s.reg rs).toNat * (s.reg rt).toNat)).extractLsb' 64 64) ((BitVec.ofNat 128 ((s.reg rs).toNat * (s.reg rt).toNat)).extractLsb' 0 64))) ∧
  (∀ (s : State) (rs rt : Reg),
    Decodes (rType 0 rs rt 0 0 26) (.div rs rt) ∧
    Decodes (rType 0 rs rt 0 0 27) (.divu rs rt) ∧
    Decodes (rType 0 rs rt 0 0 30) (.ddiv rs rt) ∧
    Decodes (rType 0 rs rt 0 0 31) (.ddivu rs rt) ∧
    (IsWord (s.reg rs) → IsWord (s.reg rt) → s.reg rt ≠ 0 → ¬((s.reg rs).toInt = -(2 ^ 31 : Int) ∧ (s.reg rt).toInt = -1) →
      WritesHiLo (.div rs rt) s (BitVec.ofInt 64 ((s.reg rs).toInt.tmod (s.reg rt).toInt)) (BitVec.ofInt 64 ((s.reg rs).toInt.tdiv (s.reg rt).toInt))) ∧
    (IsWord (s.reg rs) → IsWord (s.reg rt) → s.reg rt ≠ 0 →
      WritesHiLo (.divu rs rt) s ((BitVec.ofNat 32 (((s.reg rs).setWidth 32).toNat % ((s.reg rt).setWidth 32).toNat)).signExtend 64) ((BitVec.ofNat 32 (((s.reg rs).setWidth 32).toNat / ((s.reg rt).setWidth 32).toNat)).signExtend 64)) ∧
    NeedsUx (.ddiv rs rt) s (s.reg rt ≠ 0 → ¬((s.reg rs).toInt = -(2 ^ 63 : Int) ∧ (s.reg rt).toInt = -1) →
      WritesHiLo (.ddiv rs rt) s (BitVec.ofInt 64 ((s.reg rs).toInt.tmod (s.reg rt).toInt)) (BitVec.ofInt 64 ((s.reg rs).toInt.tdiv (s.reg rt).toInt))) ∧
    NeedsUx (.ddivu rs rt) s (s.reg rt ≠ 0 →
      WritesHiLo (.ddivu rs rt) s (BitVec.ofNat 64 ((s.reg rs).toNat % (s.reg rt).toNat)) (BitVec.ofNat 64 ((s.reg rs).toNat / (s.reg rt).toNat))) ∧
    (∃ hi lo, WritesHiLo (.div rs rt) s hi lo) ∧
    (∃ hi lo, WritesHiLo (.divu rs rt) s hi lo) ∧
    NeedsUx (.ddiv rs rt) s (∃ hi lo, WritesHiLo (.ddiv rs rt) s hi lo) ∧
    NeedsUx (.ddivu rs rt) s (∃ hi lo, WritesHiLo (.ddivu rs rt) s hi lo)) ∧
  (∀ (s : State) (rs rd : Reg),
    Decodes (rType 0 0 0 rd 0 16) (.mfhi rd) ∧
    Decodes (rType 0 rs 0 0 0 17) (.mthi rs) ∧
    Decodes (rType 0 0 0 rd 0 18) (.mflo rd) ∧
    Decodes (rType 0 rs 0 0 0 19) (.mtlo rs) ∧
    (∃ t, exec (.mfhi rd) s = .next t ∧ Advances s t ∧ t.reg rd = (if rd = 0 then 0 else s.hi) ∧ KeepsRegsBut s t rd ∧
      t.hiloBusy = false ∧
      KeepsAllBut s t [.regs, .hiloBusy]) ∧
    (∃ t, exec (.mflo rd) s = .next t ∧ Advances s t ∧ t.reg rd = (if rd = 0 then 0 else s.lo) ∧ KeepsRegsBut s t rd ∧
      t.hiloBusy = false ∧
      KeepsAllBut s t [.regs, .hiloBusy]) ∧
    (∃ lo, WritesHiLo (.mthi rs) s (s.reg rs) lo ∧ (s.hiloBusy = false → lo = s.lo)) ∧
    (∃ hi, WritesHiLo (.mtlo rs) s hi (s.reg rs) ∧ (s.hiloBusy = false → hi = s.hi)))

/-- LB, LBU, LH, LHU, LW, LWU and LD: the accessed bytes, sign or zero extended, in rt. (42_loadstore.md R290 to R296, R301, 20_memory.md R140, R151, R153, R154, R156, 10_state.md R56, 60_exceptions.md R611, 92_eei_decisions.md D20.)

Each word decodes to its instruction. When the address is formed, is aligned and translates (dataAddress gives va and the translation t), the load completes with the 1, 2, 4 or 8 bytes that MemRead (State.loadInt) gives there, sign or zero extended, in rt (discarded when rt is r0); nothing else changes but what the data cache and the streaming cache hold, and LLbit. The caches: a hit changes neither; a cachable miss fills the line of VA[13:5] with its tag and the bytes of memory (its valid bits and E are free, log 42), and the sector is then held under this synonym (R154); an uncached one uses the line as a buffer (R153; what becomes of its valid bits and E is the model's choice, log 42); every other line is as before, but that a repair clears the valid bits of the copies under the other synonym; where no DCTW has written the half line since reset, either may be (log 9). A repair of a virtual synonym in the streaming cache may clear LLbit (D20; when it does is the model's choice, logs 43 and 44). LWU and LD raise Reserved Instruction in user mode with UX = 0. -/
def Obligations.AlignedLoads : Prop :=
  ∀ (s : State) (base rt : Reg) (off : BitVec 16),
    Decodes (iType 32 base rt off) (.lb base rt off) ∧
    Decodes (iType 36 base rt off) (.lbu base rt off) ∧
    Decodes (iType 33 base rt off) (.lh base rt off) ∧
    Decodes (iType 37 base rt off) (.lhu base rt off) ∧
    Decodes (iType 35 base rt off) (.lw base rt off) ∧
    Decodes (iType 39 base rt off) (.lwu base rt off) ∧
    Decodes (iType 55 base rt off) (.ld base rt off) ∧
    (∀ va t, s.dataAddress .load 1 base (sext16 off) = .ok (va, t) →
      LoadsReg (.lb base rt off) s rt (((s.loadInt va t 1).1.setWidth 8).signExtend 64) ∧
      Leaves (.lb base rt off) s (LoadedCaches s va t 1)) ∧
    (∀ va t, s.dataAddress .load 1 base (sext16 off) = .ok (va, t) →
      LoadsReg (.lbu base rt off) s rt (((s.loadInt va t 1).1.setWidth 8).setWidth 64) ∧
      Leaves (.lbu base rt off) s (LoadedCaches s va t 1)) ∧
    (∀ va t, s.dataAddress .load 2 base (sext16 off) = .ok (va, t) →
      LoadsReg (.lh base rt off) s rt (((s.loadInt va t 2).1.setWidth 16).signExtend 64) ∧
      Leaves (.lh base rt off) s (LoadedCaches s va t 2)) ∧
    (∀ va t, s.dataAddress .load 2 base (sext16 off) = .ok (va, t) →
      LoadsReg (.lhu base rt off) s rt (((s.loadInt va t 2).1.setWidth 16).setWidth 64) ∧
      Leaves (.lhu base rt off) s (LoadedCaches s va t 2)) ∧
    (∀ va t, s.dataAddress .load 4 base (sext16 off) = .ok (va, t) →
      LoadsReg (.lw base rt off) s rt (((s.loadInt va t 4).1.setWidth 32).signExtend 64) ∧
      Leaves (.lw base rt off) s (LoadedCaches s va t 4)) ∧
    NeedsUx (.lwu base rt off) s
      (∀ va t, s.dataAddress .load 4 base (sext16 off) = .ok (va, t) →
      LoadsReg (.lwu base rt off) s rt (((s.loadInt va t 4).1.setWidth 32).setWidth 64) ∧
      Leaves (.lwu base rt off) s (LoadedCaches s va t 4)) ∧
    NeedsUx (.ld base rt off) s
      (∀ va t, s.dataAddress .load 8 base (sext16 off) = .ok (va, t) →
      LoadsReg (.ld base rt off) s rt ((s.loadInt va t 8).1) ∧
      Leaves (.ld base rt off) s (LoadedCaches s va t 8))

/-- What a load gets: the bytes of the data cache line on a hit, else those of memory, in the current byte order. (20_memory.md R124, R140, R151, R153, R108, 10_state.md R56, 70_reset_and_hazards.md R644.)

For any address, translation and size whose half line of the data cache DCTW has written since reset (R644; which half lines those are is the model's record, log 9), with no byte last stored in the other byte order: on a hit (the line of VA[13:5] has the physical tag, and the valid bit of every touched word is set) the value read is that of the line's bytes; on a miss it is that of the bytes of memory from the physical address on, where memory stands (log 11). The first byte is most significant in big endian and least significant in little endian. In every state the value has n bytes. That a datum last stored in the other byte order still reads as a value of n bytes, and the record of byte orders itself, are the model's choice (R124, D16 and U39 say refuse; log 40). -/
def Obligations.LoadedValueIsMemory : Prop :=
  ∀ (s : State) (va : Word) (t : Translation) (n : Nat), 0 < n → n ≤ 8 →
    let l := s.dline (va.extractLsb' 5 9).toNat
    let v := (s.loadInt va t n).1.toNat
    let place := fun k => if s.bigEndian then n - 1 - k else k
    v < 256 ^ n ∧
    (t.pa.toNat % 32 + n ≤ 32 → (l.hit t.pa n = true ↔ l.tag = t.pa.extractLsb' 12 28 ∧
      ∀ k, k < n → l.valid.getLsbD ((t.pa.toNat % 32 + k) / 4) = true)) ∧
    (CMap.get dcacheUnwritten s.dcacheWritten (va.extractLsb' 4 10).toNat = true →
      ByteOrder.mixed s.byteOrder s.bigEndian t.pa.toNat n = false →
      (l.hit t.pa n = true → ∀ k, k < n →
        v / 256 ^ k % 256 = (l.data.toList.getD (t.pa.toNat % 32 + place k) 0).toNat) ∧
      (l.hit t.pa n = false → (∀ k, k < n → s.backedAt (t.pa.toNat + k) = true) → ∀ k, k < n →
        v / 256 ^ k % 256 = (Memory.read s.mem (t.pa.toNat + place k)).toNat))

/-- SB, SH, SW and SD: exactly the low bytes of rt are stored, in the current byte order. (42_loadstore.md R297 to R301, 20_memory.md R108, R124, R141, R151, R153, R154, R156, 10_state.md R56, 92_eei_decisions.md D20.)

Each word decodes to its instruction. When the address is formed, is aligned and translates for a store, the store completes; those of the 1, 2, 4 or 8 bytes from the physical address on where RAM stands (R108; a store elsewhere leaves memory as it was, the model's choice, log 11) are the low bytes of rt, most significant first in big endian and last in little endian; every other byte of memory reads as before, no register changes, and nothing else but the caches, the model's record of byte orders (log 40) and LLbit. The caches: the sector of a cachable store is then held under its synonym, a repair having cleared the valid bits of the copies under another one (R154); on a hit the stored bytes are put in the line of VA[13:5] (E kept, the model's choice, log 42), on a miss it is filled from the memory stored to, or used as a buffer (R151, R153; logs 42, 43); every other line is as before; where no DCTW has written the half line since reset, either may be (log 9). A repair of a virtual synonym in the streaming cache may clear LLbit (D20; when it does is the model's choice, logs 43 and 44). SD raises Reserved Instruction in user mode with UX = 0. -/
def Obligations.AlignedStores : Prop :=
  ∀ (s : State) (base rt : Reg) (off : BitVec 16),
    Decodes (iType 40 base rt off) (.sb base rt off) ∧
    Decodes (iType 41 base rt off) (.sh base rt off) ∧
    Decodes (iType 43 base rt off) (.sw base rt off) ∧
    Decodes (iType 63 base rt off) (.sd base rt off) ∧
    (∀ va t, s.dataAddress .store 1 base (sext16 off) = .ok (va, t) →
      StoresBytes (.sb base rt off) s t.pa.toNat (storedBytes s.bigEndian 1 (s.reg rt)) [] ∧
      Leaves (.sb base rt off) s (StoredCaches s va t (storedBytes s.bigEndian 1 (s.reg rt)))) ∧
    (∀ va t, s.dataAddress .store 2 base (sext16 off) = .ok (va, t) →
      StoresBytes (.sh base rt off) s t.pa.toNat (storedBytes s.bigEndian 2 (s.reg rt)) [] ∧
      Leaves (.sh base rt off) s (StoredCaches s va t (storedBytes s.bigEndian 2 (s.reg rt)))) ∧
    (∀ va t, s.dataAddress .store 4 base (sext16 off) = .ok (va, t) →
      StoresBytes (.sw base rt off) s t.pa.toNat (storedBytes s.bigEndian 4 (s.reg rt)) [] ∧
      Leaves (.sw base rt off) s (StoredCaches s va t (storedBytes s.bigEndian 4 (s.reg rt)))) ∧
    NeedsUx (.sd base rt off) s
      (∀ va t, s.dataAddress .store 8 base (sext16 off) = .ok (va, t) →
      StoresBytes (.sd base rt off) s t.pa.toNat (storedBytes s.bigEndian 8 (s.reg rt)) [] ∧
      Leaves (.sd base rt off) s (StoredCaches s va t (storedBytes s.bigEndian 8 (s.reg rt))))

/-- LD after SD or SDC1, and LW after SWC1, of the same bytes get the stored value, whatever the data cache held. (20_memory.md R108, R140, R141, R151, R153, R154, R160, 10_state.md R56, 42_loadstore.md R294, R296, R300, 46_fp_mem_move.md R462, R463, 70_reset_and_hazards.md R644.)

For every state in which the store translates to an address where RAM stands (R108) and, for the load, whose half line of the data cache DCTW has written since reset (R644; the record of half lines is the model's, log 9). After SD of rt, LD of the same address into any register rd completes with the value of rt in rd, whether the data cache held the doubleword before, was filled, or buffered an uncached access. After SDC1 of r (coprocessor 1 usable, r legal), LD of the same address gives the 64 bits of r, and after SWC1, LW gives the sign-extended 32 bits: the floating-point store leaves no valid copy of its words in the data cache (R56, R151). So does an integer load through any other virtual address of the same physical one, when it selects the same line (VA[13:12] alike), or when SMM is 1 and the streaming cache held the sector of the cachable address under a synonym that selects the load's line (R154, R160). No general register but rd differs from before the two instructions. -/
def Obligations.StoreThenLoadDoubleword : Prop :=
  ∀ (s : State) (base r rt rd : Reg) (off : BitVec 16) (va : Word) (t : Translation),
    (UxOn s → s.dataAddress .store 8 base (sext16 off) = .ok (va, t) → s.dcacheReady va = true →
      (∀ k, k < 8 → s.ramAt (t.pa.toNat + k) = true) →
      ∃ u, exec (.sd base rt off) s = .next u ∧ ThenGets (.ld base rd off) s u rd (s.reg rt)) ∧
    (UxOn s → s.usable1 = true → LegalPairs s [r] → s.dataAddress .store 8 base (sext16 off) = .ok (va, t) →
      (∀ k, k < 8 → s.ramAt (t.pa.toNat + k) = true) →
      ∃ u, exec (.sdc1 base r off) s = .next u ∧
        (s.dcacheReady va = true → ThenGets (.ld base rd off) s u rd (s.fprFile r)) ∧
        ∀ (base' : Reg) (off' : BitVec 16) (va' : Word) (t' : Translation),
          u.dataAddress .load 8 base' (sext16 off') = .ok (va', t') → t'.pa = t.pa → s.dcacheReady va' = true →
          (va'.extractLsb' 12 2 = va.extractLsb' 12 2 ∨ t.cachable = true ∧ s.configView.smm = true ∧
            ∃ vs, s.synonym t.pa = some vs ∧ vs.extractLsb' 0 2 = va'.extractLsb' 12 2) →
          ThenGets (.ld base' rd off') s u rd (s.fprFile r)) ∧
    (s.usable1 = true → s.dataAddress .store 4 base (sext16 off) = .ok (va, t) →
      (∀ k, k < 4 → s.ramAt (t.pa.toNat + k) = true) →
      ∃ u, exec (.swc1 base r off) s = .next u ∧
        (s.dcacheReady va = true → ThenGets (.lw base rd off) s u rd ((s.fprWord r).signExtend 64)) ∧
        ∀ (base' : Reg) (off' : BitVec 16) (va' : Word) (t' : Translation),
          u.dataAddress .load 4 base' (sext16 off') = .ok (va', t') → t'.pa = t.pa → s.dcacheReady va' = true →
          (va'.extractLsb' 12 2 = va.extractLsb' 12 2 ∨ t.cachable = true ∧ s.configView.smm = true ∧
            ∃ vs, s.synonym t.pa = some vs ∧ vs.extractLsb' 0 2 = va'.extractLsb' 12 2) →
          ThenGets (.lw base' rd off') s u rd ((s.fprWord r).signExtend 64))

/-- LWL, LWR, LDL and LDR: the bytes from the address to one end of its word replace one end of rt. (42_loadstore.md R305 to R307, R310, R311, 20_memory.md R151, R153, R154, R156, 10_state.md R56, 92_eei_decisions.md D20.)

Each word decodes to its instruction. With k the low address bits, the left forms read the bytes from the address to the end of the aligned datum in big endian (from its start to the address in little endian), the right forms the others, with no alignment check. The left forms replace that many upper bytes, the right forms that many lower bytes, and keep the rest; LWL sign extends, and so does LWR when it reads four bytes, else LWR sign extends or keeps the upper half (rule R307 leaves it open; the model leaves it free, log 19). LDL and LDR raise Reserved Instruction where MIPS III is not enabled. Only rt, the caches and LLbit change. The caches: a hit changes neither; a cachable miss fills the line of VA[13:5] with its tag and the bytes of memory (its valid bits and E are free, log 42), and the sector is then held under this synonym (R154); an uncached one uses the line as a buffer (R153; what becomes of its valid bits and E is the model's choice, log 42); every other line is as before, but that a repair clears the valid bits of the copies under the other synonym; where no DCTW has written the half line since reset, either may be (log 9). A repair of a virtual synonym in the streaming cache may clear LLbit (D20; when it does is the model's choice, logs 43 and 44). -/
def Obligations.PartialLoads : Prop :=
  ∀ (s : State) (base rt : Reg) (off : BitVec 16),
    Decodes (iType 34 base rt off) (.lwl base rt off) ∧
    Decodes (iType 38 base rt off) (.lwr base rt off) ∧
    Decodes (iType 26 base rt off) (.ldl base rt off) ∧
    Decodes (iType 27 base rt off) (.ldr base rt off) ∧
    (∀ va t, s.dataAddress .load 1 base (sext16 off) = .ok (va, t) →
      let k := va.toNat % 4
      let count := if s.bigEndian = true then 4 - k else k + 1
      let back := if s.bigEndian = true then 0 else k
      let va' := va - BitVec.ofNat 64 back
      let t' := { t with pa := t.pa - BitVec.ofNat 40 back }
      let v := (s.loadInt va' t' count).1
      Leaves (.lwl base rt off) s (LoadedCaches s va' t' count) ∧
      LoadsReg (.lwl base rt off) s rt
        ((BitVec.ofNat 32 (v.toNat * 256 ^ (4 - count) + (s.reg rt).toNat % 256 ^ (4 - count))).signExtend 64)) ∧
    (∀ va t, s.dataAddress .load 1 base (sext16 off) = .ok (va, t) →
      let k := va.toNat % 4
      let count := if s.bigEndian = false then 4 - k else k + 1
      let back := if s.bigEndian = false then 0 else k
      let va' := va - BitVec.ofNat 64 back
      let t' := { t with pa := t.pa - BitVec.ofNat 40 back }
      let v := (s.loadInt va' t' count).1
      Leaves (.lwr base rt off) s (LoadedCaches s va' t' count) ∧
      let w := BitVec.ofNat 32 ((s.reg rt).toNat / 256 ^ count * 256 ^ count + v.toNat % 256 ^ count)
      (count = 4 → LoadsReg (.lwr base rt off) s rt (w.signExtend 64)) ∧
      (count ≠ 4 → LoadsReg (.lwr base rt off) s rt (w.signExtend 64) ∨
        LoadsReg (.lwr base rt off) s rt (((s.reg rt).extractLsb' 32 32) ++ w))) ∧
    NeedsUx (.ldl base rt off) s
    (∀ va t, s.dataAddress .load 1 base (sext16 off) = .ok (va, t) →
      let k := va.toNat % 8
      let count := if s.bigEndian = true then 8 - k else k + 1
      let back := if s.bigEndian = true then 0 else k
      let va' := va - BitVec.ofNat 64 back
      let t' := { t with pa := t.pa - BitVec.ofNat 40 back }
      let v := (s.loadInt va' t' count).1
      Leaves (.ldl base rt off) s (LoadedCaches s va' t' count) ∧
      LoadsReg (.ldl base rt off) s rt
        (BitVec.ofNat 64 (v.toNat * 256 ^ (8 - count) + (s.reg rt).toNat % 256 ^ (8 - count)))) ∧
    NeedsUx (.ldr base rt off) s
    (∀ va t, s.dataAddress .load 1 base (sext16 off) = .ok (va, t) →
      let k := va.toNat % 8
      let count := if s.bigEndian = false then 8 - k else k + 1
      let back := if s.bigEndian = false then 0 else k
      let va' := va - BitVec.ofNat 64 back
      let t' := { t with pa := t.pa - BitVec.ofNat 40 back }
      let v := (s.loadInt va' t' count).1
      Leaves (.ldr base rt off) s (LoadedCaches s va' t' count) ∧
      LoadsReg (.ldr base rt off) s rt
        (BitVec.ofNat 64 ((s.reg rt).toNat / 256 ^ count * 256 ^ count + v.toNat % 256 ^ count)))

/-- SWL, SWR, SDL and SDR store exactly the bytes from the address to one end of its word. (42_loadstore.md R305, R308, R309, R312, R313, 20_memory.md R108, R124, R151, R153, R154, R156, 10_state.md R56, 92_eei_decisions.md D20.)

Each word decodes to its instruction. The left forms store the upper bytes of the low word or doubleword of rt to the bytes from the address to the end of the aligned datum in big endian (from its start to the address in little endian); the right forms store the lower bytes to the others; never an alignment check. The bytes land where RAM stands (R108; a store elsewhere leaves memory as it was, the model's choice, log 11). Every other byte of memory and every register is unchanged, and nothing else changes but the caches, the model's record of byte orders (log 40) and LLbit. The caches: the sector of a cachable store is then held under its synonym, a repair having cleared the valid bits of the copies under another one (R154); on a hit the stored bytes are put in the line of VA[13:5] (E kept, the model's choice, log 42), on a miss it is filled from the memory stored to, or used as a buffer (R151, R153; logs 42, 43); every other line is as before; where no DCTW has written the half line since reset, either may be (log 9). A repair of a virtual synonym in the streaming cache may clear LLbit (D20; when it does is the model's choice, logs 43 and 44). SDL and SDR raise Reserved Instruction where MIPS III is not enabled. -/
def Obligations.PartialStores : Prop :=
  ∀ (s : State) (base rt : Reg) (off : BitVec 16),
    Decodes (iType 42 base rt off) (.swl base rt off) ∧
    Decodes (iType 46 base rt off) (.swr base rt off) ∧
    Decodes (iType 44 base rt off) (.sdl base rt off) ∧
    Decodes (iType 45 base rt off) (.sdr base rt off) ∧
    (∀ va t, s.dataAddress .store 1 base (sext16 off) = .ok (va, t) →
      let k := va.toNat % 4
      let count := if s.bigEndian = true then 4 - k else k + 1
      let back := if s.bigEndian = true then 0 else k
      let t' := { t with pa := t.pa - BitVec.ofNat 40 back }
      let bs := storedBytes s.bigEndian count (BitVec.ofNat 64 (((s.reg rt).setWidth 32).toNat / 256 ^ (4 - count)))
      StoresBytes (.swl base rt off) s t'.pa.toNat bs [] ∧
      Leaves (.swl base rt off) s (StoredCaches s (va - BitVec.ofNat 64 back) t' bs)) ∧
    (∀ va t, s.dataAddress .store 1 base (sext16 off) = .ok (va, t) →
      let k := va.toNat % 4
      let count := if s.bigEndian = false then 4 - k else k + 1
      let back := if s.bigEndian = false then 0 else k
      let t' := { t with pa := t.pa - BitVec.ofNat 40 back }
      let bs := storedBytes s.bigEndian count (s.reg rt)
      StoresBytes (.swr base rt off) s t'.pa.toNat bs [] ∧
      Leaves (.swr base rt off) s (StoredCaches s (va - BitVec.ofNat 64 back) t' bs)) ∧
    NeedsUx (.sdl base rt off) s
    (∀ va t, s.dataAddress .store 1 base (sext16 off) = .ok (va, t) →
      let k := va.toNat % 8
      let count := if s.bigEndian = true then 8 - k else k + 1
      let back := if s.bigEndian = true then 0 else k
      let t' := { t with pa := t.pa - BitVec.ofNat 40 back }
      let bs := storedBytes s.bigEndian count (BitVec.ofNat 64 ((s.reg rt).toNat / 256 ^ (8 - count)))
      StoresBytes (.sdl base rt off) s t'.pa.toNat bs [] ∧
      Leaves (.sdl base rt off) s (StoredCaches s (va - BitVec.ofNat 64 back) t' bs)) ∧
    NeedsUx (.sdr base rt off) s
    (∀ va t, s.dataAddress .store 1 base (sext16 off) = .ok (va, t) →
      let k := va.toNat % 8
      let count := if s.bigEndian = false then 8 - k else k + 1
      let back := if s.bigEndian = false then 0 else k
      let t' := { t with pa := t.pa - BitVec.ofNat 40 back }
      let bs := storedBytes s.bigEndian count (s.reg rt)
      StoresBytes (.sdr base rt off) s t'.pa.toNat bs [] ∧
      Leaves (.sdr base rt off) s (StoredCaches s (va - BitVec.ofNat 64 back) t' bs))

/-- LL and LLD set LLbit; SC and SCD store and give 1, or store nothing and give 0. (42_loadstore.md R320, R321, R324, 20_memory.md R105, R150, R151, R154, 42_loadstore.md R322 to R324, 92_eei_decisions.md D20, D23, 93_implementation_defined.md U37.)

Each word decodes to its instruction. When the aligned address translates with a cachable attribute, the load completes with the sign-extended word or the doubleword in rt and LLbit set; nothing else changes but the caches and the model's record of the access (its virtual address, the two forms of a KV1 one as one (R105), its physical address, attribute and size, log 44). The caches are left as a load leaves them (logs 9, 42, 43). With an uncached attribute it is refused (U37, D23). LLD raises Reserved Instruction where MIPS III is not enabled. Each word decodes to its instruction. When the aligned address translates for a store with a cachable attribute, and address, attribute and size are those of the last LL or LLD, the instruction completes: either rt gets 0 and nothing else changes, or rt gets 1 and exactly the low bytes of rt as it was are stored at the address (where RAM stands); with LLbit clear it is the first. LLbit is unchanged, but that a repair of the streaming cache clears it; the caches are left as a store leaves them (logs 9, 42, 43). With an uncached attribute, with another address, size or attribute, or with no LL before it, it is refused (R324, U37 with D23; that both the virtual and the physical address are compared is the model's choice, log 44; the two forms of a KV1 address are one, R105). SCD raises Reserved Instruction where MIPS III is not enabled. -/
def Obligations.LinkedLoadsAndConditionalStores : Prop :=
  (∀ (s : State) (base rt : Reg) (off : BitVec 16),
    Decodes (iType 48 base rt off) (.ll base rt off) ∧
    Decodes (iType 52 base rt off) (.lld base rt off) ∧
    (∀ va t, s.dataAddress .load 4 base (sext16 off) = .ok (va, t) →
      (t.c ≠ 3 → t.c ≠ 4 → t.c ≠ 5 → exec (.ll base rt off) s = .refused .uncachedLink) ∧
      (t.c = 3 ∨ t.c = 4 ∨ t.c = 5 →
        ∃ u, exec (.ll base rt off) s = .next u ∧ Advances s u ∧
          u.reg rt = (if rt = 0 then 0 else ((s.loadInt va t 4).1.setWidth 32).signExtend 64) ∧ KeepsRegsBut s u rt ∧
          u.llbit = true ∧ u.linked = some ⟨if va.extractLsb' 62 2 = 3 then 3#2 ++ 0#14 ++ va.extractLsb' 0 48 else va, t.pa, t.c, 4⟩ ∧
          LoadedCaches s va t 4 u ∧ KeepsAllBut s u [.regs, .llbit, .linked, .dcache, .scache])) ∧
    NeedsUx (.lld base rt off) s
    (∀ va t, s.dataAddress .load 8 base (sext16 off) = .ok (va, t) →
      (t.c ≠ 3 → t.c ≠ 4 → t.c ≠ 5 → exec (.lld base rt off) s = .refused .uncachedLink) ∧
      (t.c = 3 ∨ t.c = 4 ∨ t.c = 5 →
        ∃ u, exec (.lld base rt off) s = .next u ∧ Advances s u ∧
          u.reg rt = (if rt = 0 then 0 else (s.loadInt va t 8).1) ∧ KeepsRegsBut s u rt ∧
          u.llbit = true ∧ u.linked = some ⟨if va.extractLsb' 62 2 = 3 then 3#2 ++ 0#14 ++ va.extractLsb' 0 48 else va, t.pa, t.c, 8⟩ ∧
          LoadedCaches s va t 8 u ∧ KeepsAllBut s u [.regs, .llbit, .linked, .dcache, .scache]))) ∧
  (∀ (s : State) (base rt : Reg) (off : BitVec 16),
    Decodes (iType 56 base rt off) (.sc base rt off) ∧
    Decodes (iType 60 base rt off) (.scd base rt off) ∧
    (∀ va t, s.dataAddress .store 4 base (sext16 off) = .ok (va, t) →
      (t.c ≠ 3 → t.c ≠ 4 → t.c ≠ 5 → exec (.sc base rt off) s = .refused .uncachedLink) ∧
      (t.c = 3 ∨ t.c = 4 ∨ t.c = 5 → s.linked ≠ some ⟨if va.extractLsb' 62 2 = 3 then 3#2 ++ 0#14 ++ va.extractLsb' 0 48 else va, t.pa, t.c, 4⟩ →
        exec (.sc base rt off) s = .refused .unmatchedConditional) ∧
      (t.c = 3 ∨ t.c = 4 ∨ t.c = 5 → s.linked = some ⟨if va.extractLsb' 62 2 = 3 then 3#2 ++ 0#14 ++ va.extractLsb' 0 48 else va, t.pa, t.c, 4⟩ → s.llbit = false →
        WritesReg (.sc base rt off) s rt 0) ∧
      (t.c = 3 ∨ t.c = 4 ∨ t.c = 5 → s.linked = some ⟨if va.extractLsb' 62 2 = 3 then 3#2 ++ 0#14 ++ va.extractLsb' 0 48 else va, t.pa, t.c, 4⟩ → WritesReg (.sc base rt off) s rt 0 ∨
        ∃ u, exec (.sc base rt off) s = .next u ∧ Advances s u ∧ u.reg rt = (if rt = 0 then 0 else 1) ∧
          KeepsRegsBut s u rt ∧ StoredAt s u t.pa.toNat (storedBytes s.bigEndian 4 (s.reg rt)) ∧ KeepsLinkBut s u ∧
          StoredCaches s va t (storedBytes s.bigEndian 4 (s.reg rt)) u ∧ KeepsAllBut s u [.regs, .memory, .byteOrder, .llbit, .dcache, .scache])) ∧
    NeedsUx (.scd base rt off) s
    (∀ va t, s.dataAddress .store 8 base (sext16 off) = .ok (va, t) →
      (t.c ≠ 3 → t.c ≠ 4 → t.c ≠ 5 → exec (.scd base rt off) s = .refused .uncachedLink) ∧
      (t.c = 3 ∨ t.c = 4 ∨ t.c = 5 → s.linked ≠ some ⟨if va.extractLsb' 62 2 = 3 then 3#2 ++ 0#14 ++ va.extractLsb' 0 48 else va, t.pa, t.c, 8⟩ →
        exec (.scd base rt off) s = .refused .unmatchedConditional) ∧
      (t.c = 3 ∨ t.c = 4 ∨ t.c = 5 → s.linked = some ⟨if va.extractLsb' 62 2 = 3 then 3#2 ++ 0#14 ++ va.extractLsb' 0 48 else va, t.pa, t.c, 8⟩ → s.llbit = false →
        WritesReg (.scd base rt off) s rt 0) ∧
      (t.c = 3 ∨ t.c = 4 ∨ t.c = 5 → s.linked = some ⟨if va.extractLsb' 62 2 = 3 then 3#2 ++ 0#14 ++ va.extractLsb' 0 48 else va, t.pa, t.c, 8⟩ → WritesReg (.scd base rt off) s rt 0 ∨
        ∃ u, exec (.scd base rt off) s = .next u ∧ Advances s u ∧ u.reg rt = (if rt = 0 then 0 else 1) ∧
          KeepsRegsBut s u rt ∧ StoredAt s u t.pa.toNat (storedBytes s.bigEndian 8 (s.reg rt)) ∧ KeepsLinkBut s u ∧
          StoredCaches s va t (storedBytes s.bigEndian 8 (s.reg rt)) u ∧ KeepsAllBut s u [.regs, .memory, .byteOrder, .llbit, .dcache, .scache])))

/-- SYNC, PREF, PFETCH and SSNOP change nothing but the program counter; a prefetch of an illegal address is refused. (42_loadstore.md R326, R330, 46_fp_mem_move.md R474, 47_cop0.md R523, 20_memory.md R103, R157, 92_eei_decisions.md D29, 93_implementation_defined.md U36.)

Each word decodes to its instruction. SYNC changes nothing. PREF and PFETCH (enabled by XX, PFETCH by CU1 too) change nothing when the address passes the region check and is legal, raise the Address Error of the region check when it fails, and are refused when it passes but the address is illegal (R157, D29, U36; log 45); no TLB exception can arise. SSNOP changes nothing but the model's record of how long a late coprocessor-0 write may still be late (log 47). -/
def Obligations.SyncPrefetchAndSsnop : Prop :=
  ∀ (s : State) (base index : Reg) (off : BitVec 16) (hint : BitVec 5),
    Decodes (rType 0 0 0 0 hint 15) (.sync hint) ∧
    Decodes (iType 51 base hint off) (.pref base hint off) ∧
    Decodes (rType 19 base index hint 0 15) (.pfetch base index hint) ∧
    Decodes (rType 0 0 0 0 1 0) .ssnop ∧
    DoesNothing (.sync hint) s ∧
    NeedsXx (.pref base hint off) s
      ((∀ va neg, s.addrCalc .load base (sext16 off) = .ok (va, neg) → (legalAddress va s.user = true → DoesNothing (.pref base hint off) s) ∧
        (legalAddress va s.user = false → exec (.pref base hint off) s = .refused .prefetchAddress)) ∧
      ∀ e, s.addrCalc .load base (sext16 off) = .raise e → Raises (.pref base hint off) s e) ∧
    NeedsCp1 (.pfetch base index hint) s (NeedsXx (.pfetch base index hint) s
      ((∀ va neg, s.addrCalc .load base (s.reg index) = .ok (va, neg) → (legalAddress va s.user = true → DoesNothing (.pfetch base index hint) s) ∧
        (legalAddress va s.user = false → exec (.pfetch base index hint) s = .refused .prefetchAddress)) ∧
      ∀ e, s.addrCalc .load base (s.reg index) = .raise e → Raises (.pfetch base index hint) s e)) ∧
    ∃ t, exec .ssnop s = .next t ∧ Advances s t ∧ KeepsAllBut s t [.late]

/-- An integer load or store whose address cannot be used takes the exception of the address from the unchanged state. (42_loadstore.md R301, 20_memory.md R140, R141, 60_exceptions.md R566, R567.)

For every integer load and store and every exception e: when forming, aligning or translating its address raises e, the instruction takes e from the state before it, in which it has written no register and no memory (the MIPS III ones where they are enabled). -/
def Obligations.FailedAccessesRaise : Prop :=
  ∀ (s : State) (base rt : Reg) (off : BitVec 16) (e : Exc),
    (s.dataAddress .load 1 base (sext16 off) = .raise e → Raises (.lb base rt off) s e) ∧
    (s.dataAddress .load 1 base (sext16 off) = .raise e → Raises (.lbu base rt off) s e) ∧
    (s.dataAddress .load 2 base (sext16 off) = .raise e → Raises (.lh base rt off) s e) ∧
    (s.dataAddress .load 2 base (sext16 off) = .raise e → Raises (.lhu base rt off) s e) ∧
    (s.dataAddress .load 4 base (sext16 off) = .raise e → Raises (.lw base rt off) s e) ∧
    (s.dataAddress .load 4 base (sext16 off) = .raise e → Raises (.ll base rt off) s e) ∧
    (s.dataAddress .load 1 base (sext16 off) = .raise e → Raises (.lwl base rt off) s e) ∧
    (s.dataAddress .load 1 base (sext16 off) = .raise e → Raises (.lwr base rt off) s e) ∧
    (s.dataAddress .store 1 base (sext16 off) = .raise e → Raises (.sb base rt off) s e) ∧
    (s.dataAddress .store 2 base (sext16 off) = .raise e → Raises (.sh base rt off) s e) ∧
    (s.dataAddress .store 4 base (sext16 off) = .raise e → Raises (.sw base rt off) s e) ∧
    (s.dataAddress .store 4 base (sext16 off) = .raise e → Raises (.sc base rt off) s e) ∧
    (s.dataAddress .store 1 base (sext16 off) = .raise e → Raises (.swl base rt off) s e) ∧
    (s.dataAddress .store 1 base (sext16 off) = .raise e → Raises (.swr base rt off) s e) ∧
    (UxOn s →
      (s.dataAddress .load 4 base (sext16 off) = .raise e → Raises (.lwu base rt off) s e) ∧
      (s.dataAddress .load 8 base (sext16 off) = .raise e → Raises (.ld base rt off) s e) ∧
      (s.dataAddress .load 8 base (sext16 off) = .raise e → Raises (.lld base rt off) s e) ∧
      (s.dataAddress .load 1 base (sext16 off) = .raise e → Raises (.ldl base rt off) s e) ∧
      (s.dataAddress .load 1 base (sext16 off) = .raise e → Raises (.ldr base rt off) s e) ∧
      (s.dataAddress .store 8 base (sext16 off) = .raise e → Raises (.sd base rt off) s e) ∧
      (s.dataAddress .store 8 base (sext16 off) = .raise e → Raises (.scd base rt off) s e) ∧
      (s.dataAddress .store 1 base (sext16 off) = .raise e → Raises (.sdl base rt off) s e) ∧
      (s.dataAddress .store 1 base (sext16 off) = .raise e → Raises (.sdr base rt off) s e))

/-- How a data address is formed, checked for its region and its alignment, and what each failure raises. (R112, 20_memory.md R103, R113, R121, R140, R141.)

With va the sum of base and offset modulo 2^64: outside the r0 rule an address whose region differs from the base register's raises Address Error; r0 with a negative offset raises it in user mode and gives the address with region 11 in kernel mode; then a misaligned address raises Address Error, and then the translation decides: its address, its exception, its refusal or its fault is that of the access. The codes are 5 for a store and 4 for a load, and the exception names the address. -/
def Obligations.AddressFormation : Prop :=
  ∀ (s : State) (kind : AccessKind) (align : Nat) (base : Reg) (off : Word),
    let va := s.reg base + off
    (¬(base = 0 ∧ off.msb = true) → va.extractLsb' 62 2 ≠ (s.reg base).extractLsb' 62 2 →
      s.dataAddress kind align base off = .raise (kind.addressError va)) ∧
    (base = 0 → off.msb = true → s.user = true → s.dataAddress kind align base off = .raise (kind.addressError va)) ∧
    (base = 0 → off.msb = true → s.user = false →
      let wa := 3#2 ++ va.extractLsb' 0 62
      (wa.toNat % align ≠ 0 → s.dataAddress kind align base off = .raise (kind.addressError wa)) ∧
      (wa.toNat % align = 0 → (∀ t, s.translate kind wa true = .ok t → s.dataAddress kind align base off = .ok (wa, t)) ∧
        (∀ e, s.translate kind wa true = .raise e → s.dataAddress kind align base off = .raise e) ∧
        (∀ r, s.translate kind wa true = .refuse r → s.dataAddress kind align base off = .refuse r) ∧
        ∀ f, s.translate kind wa true = .fault f → s.dataAddress kind align base off = .fault f)) ∧
    (¬(base = 0 ∧ off.msb = true) → va.extractLsb' 62 2 = (s.reg base).extractLsb' 62 2 →
      (va.toNat % align ≠ 0 → s.dataAddress kind align base off = .raise (kind.addressError va)) ∧
      (va.toNat % align = 0 → (∀ t, s.translate kind va false = .ok t → s.dataAddress kind align base off = .ok (va, t)) ∧
        (∀ e, s.translate kind va false = .raise e → s.dataAddress kind align base off = .raise e) ∧
        (∀ r, s.translate kind va false = .refuse r → s.dataAddress kind align base off = .refuse r) ∧
        ∀ f, s.translate kind va false = .fault f → s.dataAddress kind align base off = .fault f)) ∧
    (kind.addressError va).code = (if kind = .store then 5 else 4)

/-- Which addresses are legal, that an illegal one raises Address Error, and that region 10 is not translated. (20_memory.md R103, 20_memory.md R106, 20_memory.md R107.)

In user mode only region 00 is legal. Regions 00 and 01 need filler bits 61 to 48 all zero, region 11 all zero or all one, region 10 an attribute of 0, 2, 3, 4 or 5 in bits 61 to 59 (R106) and zeros in 58 to 40 (marked derived in R106, as the mixed fillers of region 11 are in R103). An illegal address raises Address Error with the address, of the load kind for a fetch or load and of the store kind for a store. For every access to a legal address of region 10 in kernel mode: the translation gives the low 40 bits as the physical address and bits 61 to 59 as the coherence attribute, whatever the TLB holds; no valid, dirty or write-protect check is made. -/
def Obligations.LegalAndPhysicalAddresses : Prop :=
  (∀ (s : State) (kind : AccessKind) (va : Word) (neg user : Bool),
    (legalAddress va user = true ↔
      (user = true → va.toNat / 2 ^ 62 = 0) ∧
      (va.toNat / 2 ^ 62 ≤ 1 → va.toNat / 2 ^ 48 % 2 ^ 14 = 0) ∧
      (va.toNat / 2 ^ 62 = 3 → va.toNat / 2 ^ 48 % 2 ^ 14 = 0 ∨ va.toNat / 2 ^ 48 % 2 ^ 14 = 2 ^ 14 - 1) ∧
      (va.toNat / 2 ^ 62 = 2 → (va.toNat / 2 ^ 59 % 8 = 0 ∨ (2 ≤ va.toNat / 2 ^ 59 % 8 ∧ va.toNat / 2 ^ 59 % 8 ≤ 5)) ∧
        va.toNat / 2 ^ 40 % 2 ^ 19 = 0)) ∧
    (legalAddress va s.user = false →
      s.translate kind va neg = .raise (if kind = .store then .addressErrorStore va else .addressErrorLoad va))) ∧
  (∀ (s : State) (kind : AccessKind) (va : Word) (neg : Bool),
    legalAddress va s.user = true → va.extractLsb' 62 2 = 2 →
    s.translate kind va neg = .ok ⟨va.setWidth 40, va.extractLsb' 59 3⟩)

/-- How the TLB translates: the class and its matching sets, frame and page offset of the one match, and what each failure raises. (R130, 20_memory.md R131 to R136, 10_state.md R37, R41, R49, 92_eei_decisions.md D10, D18.)

For a legal mapped address with page size 2^k: with exactly one matching set, a valid entry (dirty for a store) with an unreserved attribute and no frame bits inside the page gives the physical address frame + page offset and the entry's attribute; an invalid entry raises TLB Invalid; a clean one raises TLB Modified for a store; with no matching set TLB Refill is raised, naming set 1 or 2 when a valid pair of Wired names the class and 0, 1 or 2 otherwise (which of them is free, log 39); several matching sets are the fault of D18 (log 34), a reserved attribute or page size is refused (log 36). The class is bits k+6 to k of the address, exclusive-or the ASID outside region 11; the page size is UPS for region 00, KPS for the others and for r0 with a negative offset, with the encodings of R41; a set matches when its region, its page number above the page size and, outside region 11, its ASID agree. A fetch exception names the address of its line (D10, log 55). -/
def Obligations.MappedTranslation : Prop :=
  (∀ (s : State) (kind : AccessKind) (va : Word) (neg : Bool) (k : Nat),
    legalAddress va s.user = true → va.extractLsb' 62 2 ≠ 2 →
    pageBitsOf (pageSizeField s.statusView (va.extractLsb' 62 2) neg) = some k →
    let index := tlbIndex s.cp0.entryHi.asid va k
    (∀ n, n < 7 → index.getLsbD n =
      (va.getLsbD (k + n) ^^ (va.extractLsb' 62 2 != 3 && s.cp0.entryHi.asid.getLsbD n))) ∧
    (s.tlbMatches index va k).Nodup ∧
    (∀ w, w ∈ s.tlbMatches index va k ↔ w ≠ 3 ∧
      let e := (s.tlbEntry index w).hi
      e.r = va.extractLsb' 62 2 ∧ e.vpn.toNat / 2 ^ (k - 19) = va.toNat / 2 ^ 19 % 2 ^ 29 / 2 ^ (k - 19) ∧
      (va.extractLsb' 62 2 = 3 ∨ e.asid = s.cp0.entryHi.asid)) ∧
    (∀ w, s.tlbMatches index va k = [w] →
      let e := (s.tlbEntry index w).lo
      (e.v = true → (kind = .store → e.d = true) → (e.c ≠ 1 ∧ e.c ≠ 6 ∧ e.c ≠ 7) →
        e.pfn.toNat % 2 ^ (k - 12) = 0 →
        ∃ pa, s.translate kind va neg = .ok ⟨pa, e.c⟩ ∧ pa.toNat = e.pfn.toNat * 4096 + va.toNat % 2 ^ k) ∧
      (e.v = false →
        s.translate kind va neg = .raise (.tlbInvalid (kind == .store) (kind.faultAddress va) k w)) ∧
      (e.v = true → kind = .store → e.d = false → s.translate kind va neg = .raise (.tlbModified va k w)) ∧
      (e.v = true → (kind = .store → e.d = true) → (e.c = 1 ∨ e.c = 6 ∨ e.c = 7) →
        s.translate kind va neg = .refuse .reservedCoherence)) ∧
    (s.tlbMatches index va k = [] → ∃ w, (w = 1 ∨ w = 2 ∨ (w = 0 ∧ ¬∃ p ∈ s.wiredView.toList, p.v = true ∧ p.index = index)) ∧
      s.translate kind va neg = .raise (.tlbRefill (kind == .store) (kind.faultAddress va) k w)) ∧
    (∀ w x l, s.tlbMatches index va k = w :: x :: l → s.translate kind va neg = .fault .tlbMultipleMatch)) ∧
  (∀ (s : State) (kind : AccessKind) (va : Word) (neg : Bool), legalAddress va s.user = true → va.extractLsb' 62 2 ≠ 2 →
    pageBitsOf (pageSizeField s.statusView (va.extractLsb' 62 2) neg) = none →
    s.translate kind va neg = .refuse .reservedPageSize) ∧
  (∀ st : StatusReg, pageSizeField st 0 false = st.ups ∧ pageSizeField st 0 true = st.kps ∧
    ∀ (r : BitVec 2) (neg : Bool), r ≠ 0 → pageSizeField st r neg = st.kps) ∧
  pageBitsOf 0 = some 12 ∧ pageBitsOf 1 = some 13 ∧ pageBitsOf 2 = some 14 ∧ pageBitsOf 3 = some 16 ∧
  pageBitsOf 4 = some 20 ∧ pageBitsOf 5 = some 22 ∧ pageBitsOf 6 = some 24 ∧ (∀ n : BitVec 4, 7 ≤ n.toNat → pageBitsOf n = none) ∧
  (∀ s : State, s.late.wired = none → s.wiredView = s.cp0.wired) ∧
  (∀ va : Word, (AccessKind.fetch.faultAddress va).toNat = va.toNat / 32 * 32 ∧ AccessKind.load.faultAddress va = va ∧
    AccessKind.store.faultAddress va = va)

/-- J, JAL, JR, JALR and the four branches that link: target, link register, delay slot, completion, frame. (43_branch_jump.md R342 to R345, 93_implementation_defined.md U23, 43_branch_jump.md R358 to R361.)

Each word decodes to its instruction. Outside a delay slot each jump completes: the delay slot is next, then the target (for J and JAL the 256 MB segment of the delay slot with four times the field, for JR and JALR the register, read before the link is written). JAL writes PC + 8 to r31 and JALR to rd (nothing when rd is r0); nothing else changes. JALR with rd = rs is refused (U23; the model's choice, log 49). Each word decodes to its instruction. Outside a delay slot and with rs not r31, r31 gets PC + 8 in both cases; the branch is taken by the value rs had; the likely forms nullify the slot when not taken. Nothing else changes. R359 to R361 say that rs must not be r31: with rs = r31 the model refuses (U23; the model's choice, log 49). -/
def Obligations.JumpsAndLinks : Prop :=
  (∀ (s : State) (rs rd : Reg) (target : BitVec 26),
    Decodes (jType 2 target) (.j target) ∧
    Decodes (jType 3 target) (.jal target) ∧
    Decodes (rType 0 rs 0 0 0 8) (.jr rs) ∧
    Decodes (rType 0 rs 0 rd 0 9) (.jalr rs rd) ∧
    (s.inSlot = false → Transfers (.j target) s (BitVec.ofNat 64 ((s.pc + 4).toNat / 2 ^ 28 * 2 ^ 28 + 4 * target.toNat)) none) ∧
    (s.inSlot = false → Transfers (.jal target) s (BitVec.ofNat 64 ((s.pc + 4).toNat / 2 ^ 28 * 2 ^ 28 + 4 * target.toNat)) (some 31)) ∧
    (s.inSlot = false → Transfers (.jr rs) s (s.reg rs) none) ∧
    (s.inSlot = false → rs ≠ rd → Transfers (.jalr rs rd) s (s.reg rs) (some rd)) ∧
    (s.inSlot = false → rs = rd → exec (.jalr rs rd) s = .refused .linkSourceRegister)) ∧
  (∀ (s : State) (rs : Reg) (off : BitVec 16),
    Decodes (iType 1 rs 16 off) (.bltzal rs off) ∧
    (s.inSlot = false → rs ≠ 31 → Branches (.bltzal rs off) s ((s.reg rs).toInt < 0) (s.pc + 4 + BitVec.ofInt 64 (4 * off.toInt)) (some 31)) ∧
    (s.inSlot = false → rs = 31 → exec (.bltzal rs off) s = .refused .linkSourceRegister) ∧
    Decodes (iType 1 rs 17 off) (.bgezal rs off) ∧
    (s.inSlot = false → rs ≠ 31 → Branches (.bgezal rs off) s (0 ≤ (s.reg rs).toInt) (s.pc + 4 + BitVec.ofInt 64 (4 * off.toInt)) (some 31)) ∧
    (s.inSlot = false → rs = 31 → exec (.bgezal rs off) s = .refused .linkSourceRegister) ∧
    Decodes (iType 1 rs 18 off) (.bltzall rs off) ∧
    (s.inSlot = false → rs ≠ 31 → BranchesLikely (.bltzall rs off) s ((s.reg rs).toInt < 0) (s.pc + 4 + BitVec.ofInt 64 (4 * off.toInt)) (some 31)) ∧
    (s.inSlot = false → rs = 31 → exec (.bltzall rs off) s = .refused .linkSourceRegister) ∧
    Decodes (iType 1 rs 19 off) (.bgezall rs off) ∧
    (s.inSlot = false → rs ≠ 31 → BranchesLikely (.bgezall rs off) s (0 ≤ (s.reg rs).toInt) (s.pc + 4 + BitVec.ofInt 64 (4 * off.toInt)) (some 31)) ∧
    (s.inSlot = false → rs = 31 → exec (.bgezall rs off) s = .refused .linkSourceRegister))

/-- The twelve conditional branches: condition, target, delay slot or nullified slot, completion and frame. (R346, R347, R348, R349, R350, R351, R352, R353, R354, R355, R356, R357.) -/
def Obligations.ConditionalBranches : Prop :=
  (∀ (s : State) (rs rt : Reg) (off : BitVec 16),
    Decodes (iType 4 rs rt off) (.beq rs rt off) ∧
    (s.inSlot = false → Branches (.beq rs rt off) s (s.reg rs = s.reg rt) (s.pc + 4 + BitVec.ofInt 64 (4 * off.toInt)) none) ∧
    Decodes (iType 5 rs rt off) (.bne rs rt off) ∧
    (s.inSlot = false → Branches (.bne rs rt off) s (s.reg rs ≠ s.reg rt) (s.pc + 4 + BitVec.ofInt 64 (4 * off.toInt)) none) ∧
    Decodes (iType 6 rs 0 off) (.blez rs off) ∧
    (s.inSlot = false → Branches (.blez rs off) s ((s.reg rs).toInt ≤ 0) (s.pc + 4 + BitVec.ofInt 64 (4 * off.toInt)) none) ∧
    Decodes (iType 7 rs 0 off) (.bgtz rs off) ∧
    (s.inSlot = false → Branches (.bgtz rs off) s (0 < (s.reg rs).toInt) (s.pc + 4 + BitVec.ofInt 64 (4 * off.toInt)) none) ∧
    Decodes (iType 1 rs 0 off) (.bltz rs off) ∧
    (s.inSlot = false → Branches (.bltz rs off) s ((s.reg rs).toInt < 0) (s.pc + 4 + BitVec.ofInt 64 (4 * off.toInt)) none) ∧
    Decodes (iType 1 rs 1 off) (.bgez rs off) ∧
    (s.inSlot = false → Branches (.bgez rs off) s (0 ≤ (s.reg rs).toInt) (s.pc + 4 + BitVec.ofInt 64 (4 * off.toInt)) none)) ∧
  (∀ (s : State) (rs rt : Reg) (off : BitVec 16),
    Decodes (iType 20 rs rt off) (.beql rs rt off) ∧
    (s.inSlot = false → BranchesLikely (.beql rs rt off) s (s.reg rs = s.reg rt) (s.pc + 4 + BitVec.ofInt 64 (4 * off.toInt)) none) ∧
    Decodes (iType 21 rs rt off) (.bnel rs rt off) ∧
    (s.inSlot = false → BranchesLikely (.bnel rs rt off) s (s.reg rs ≠ s.reg rt) (s.pc + 4 + BitVec.ofInt 64 (4 * off.toInt)) none) ∧
    Decodes (iType 22 rs 0 off) (.blezl rs off) ∧
    (s.inSlot = false → BranchesLikely (.blezl rs off) s ((s.reg rs).toInt ≤ 0) (s.pc + 4 + BitVec.ofInt 64 (4 * off.toInt)) none) ∧
    Decodes (iType 23 rs 0 off) (.bgtzl rs off) ∧
    (s.inSlot = false → BranchesLikely (.bgtzl rs off) s (0 < (s.reg rs).toInt) (s.pc + 4 + BitVec.ofInt 64 (4 * off.toInt)) none) ∧
    Decodes (iType 1 rs 2 off) (.bltzl rs off) ∧
    (s.inSlot = false → BranchesLikely (.bltzl rs off) s ((s.reg rs).toInt < 0) (s.pc + 4 + BitVec.ofInt 64 (4 * off.toInt)) none) ∧
    Decodes (iType 1 rs 3 off) (.bgezl rs off) ∧
    (s.inSlot = false → BranchesLikely (.bgezl rs off) s (0 ≤ (s.reg rs).toInt) (s.pc + 4 + BitVec.ofInt 64 (4 * off.toInt)) none))

/-- A jump or branch in a delay slot is refused, as R340 says. (43_branch_jump.md R340, 93_implementation_defined.md U23.)

For every integer jump and branch: in a state whose program counter is in a delay slot the model refuses it by name; ERET likewise, where coprocessor 0 is usable. -/
def Obligations.TransferInDelaySlotRefused : Prop :=
  ∀ (s : State) (rs rt : Reg) (off : BitVec 16) (target : BitVec 26), s.inSlot = true →
    exec (.j target) s = .refused .transferInDelaySlot ∧
    exec (.jal target) s = .refused .transferInDelaySlot ∧
    exec (.jr rs) s = .refused .transferInDelaySlot ∧
    exec (.jalr rs rt) s = .refused .transferInDelaySlot ∧
    exec (.beq rs rt off) s = .refused .transferInDelaySlot ∧
    exec (.bne rs rt off) s = .refused .transferInDelaySlot ∧
    exec (.beql rs rt off) s = .refused .transferInDelaySlot ∧
    exec (.bnel rs rt off) s = .refused .transferInDelaySlot ∧
    exec (.blez rs off) s = .refused .transferInDelaySlot ∧
    exec (.bgtz rs off) s = .refused .transferInDelaySlot ∧
    exec (.bltz rs off) s = .refused .transferInDelaySlot ∧
    exec (.bgez rs off) s = .refused .transferInDelaySlot ∧
    exec (.blezl rs off) s = .refused .transferInDelaySlot ∧
    exec (.bgtzl rs off) s = .refused .transferInDelaySlot ∧
    exec (.bltzl rs off) s = .refused .transferInDelaySlot ∧
    exec (.bgezl rs off) s = .refused .transferInDelaySlot ∧
    exec (.bltzal rs off) s = .refused .transferInDelaySlot ∧
    exec (.bgezal rs off) s = .refused .transferInDelaySlot ∧
    exec (.bltzall rs off) s = .refused .transferInDelaySlot ∧
    exec (.bgezall rs off) s = .refused .transferInDelaySlot ∧
    (s.usable0 = true → exec .eret s = .refused .transferInDelaySlot)

/-- The twelve trap instructions trap exactly when their 64-bit comparison holds. (R380, R381, R382, R383, R384, R385, 44_trap_sys.md R386 to R391, R394.)

Each word decodes to its instruction, whatever its code field. When the comparison of the two registers holds the Trap exception is taken from the unchanged state; otherwise nothing changes but the program counter. Each word decodes to its instruction. The immediate is sign extended to 64 bits, for the unsigned comparisons too. When the comparison holds the Trap exception is taken from the unchanged state; otherwise nothing changes but the program counter. -/
def Obligations.Traps : Prop :=
  (∀ (s : State) (rs rt : Reg) (code : BitVec 10),
    Decodes (rType 0 rs rt (code.extractLsb' 5 5) (code.extractLsb' 0 5) 48) (.tge rs rt code) ∧
    ((((s.reg rt).toInt ≤ (s.reg rs).toInt) → Raises (.tge rs rt code) s .trap) ∧ (¬((s.reg rt).toInt ≤ (s.reg rs).toInt) → DoesNothing (.tge rs rt code) s)) ∧
    Decodes (rType 0 rs rt (code.extractLsb' 5 5) (code.extractLsb' 0 5) 49) (.tgeu rs rt code) ∧
    ((((s.reg rt).toNat ≤ (s.reg rs).toNat) → Raises (.tgeu rs rt code) s .trap) ∧ (¬((s.reg rt).toNat ≤ (s.reg rs).toNat) → DoesNothing (.tgeu rs rt code) s)) ∧
    Decodes (rType 0 rs rt (code.extractLsb' 5 5) (code.extractLsb' 0 5) 50) (.tlt rs rt code) ∧
    ((((s.reg rs).toInt < (s.reg rt).toInt) → Raises (.tlt rs rt code) s .trap) ∧ (¬((s.reg rs).toInt < (s.reg rt).toInt) → DoesNothing (.tlt rs rt code) s)) ∧
    Decodes (rType 0 rs rt (code.extractLsb' 5 5) (code.extractLsb' 0 5) 51) (.tltu rs rt code) ∧
    ((((s.reg rs).toNat < (s.reg rt).toNat) → Raises (.tltu rs rt code) s .trap) ∧ (¬((s.reg rs).toNat < (s.reg rt).toNat) → DoesNothing (.tltu rs rt code) s)) ∧
    Decodes (rType 0 rs rt (code.extractLsb' 5 5) (code.extractLsb' 0 5) 52) (.teq rs rt code) ∧
    (((s.reg rs = s.reg rt) → Raises (.teq rs rt code) s .trap) ∧ (¬(s.reg rs = s.reg rt) → DoesNothing (.teq rs rt code) s)) ∧
    Decodes (rType 0 rs rt (code.extractLsb' 5 5) (code.extractLsb' 0 5) 54) (.tne rs rt code) ∧
    (((s.reg rs ≠ s.reg rt) → Raises (.tne rs rt code) s .trap) ∧ (¬(s.reg rs ≠ s.reg rt) → DoesNothing (.tne rs rt code) s))) ∧
  (∀ (s : State) (rs : Reg) (imm : BitVec 16),
    Decodes (iType 1 rs 8 imm) (.tgei rs imm) ∧
    (((imm.toInt ≤ (s.reg rs).toInt) → Raises (.tgei rs imm) s .trap) ∧ (¬(imm.toInt ≤ (s.reg rs).toInt) → DoesNothing (.tgei rs imm) s)) ∧
    Decodes (iType 1 rs 9 imm) (.tgeiu rs imm) ∧
    ((((imm.signExtend 64).toNat ≤ (s.reg rs).toNat) → Raises (.tgeiu rs imm) s .trap) ∧ (¬((imm.signExtend 64).toNat ≤ (s.reg rs).toNat) → DoesNothing (.tgeiu rs imm) s)) ∧
    Decodes (iType 1 rs 10 imm) (.tlti rs imm) ∧
    ((((s.reg rs).toInt < imm.toInt) → Raises (.tlti rs imm) s .trap) ∧ (¬((s.reg rs).toInt < imm.toInt) → DoesNothing (.tlti rs imm) s)) ∧
    Decodes (iType 1 rs 11 imm) (.tltiu rs imm) ∧
    ((((s.reg rs).toNat < (imm.signExtend 64).toNat) → Raises (.tltiu rs imm) s .trap) ∧ (¬((s.reg rs).toNat < (imm.signExtend 64).toNat) → DoesNothing (.tltiu rs imm) s)) ∧
    Decodes (iType 1 rs 12 imm) (.teqi rs imm) ∧
    (((s.reg rs = imm.signExtend 64) → Raises (.teqi rs imm) s .trap) ∧ (¬(s.reg rs = imm.signExtend 64) → DoesNothing (.teqi rs imm) s)) ∧
    Decodes (iType 1 rs 14 imm) (.tnei rs imm) ∧
    (((s.reg rs ≠ imm.signExtend 64) → Raises (.tnei rs imm) s .trap) ∧ (¬(s.reg rs ≠ imm.signExtend 64) → DoesNothing (.tnei rs imm) s)))

/-- SYSCALL and BREAK take their exceptions, whatever their code field. (44_trap_sys.md R392, R393, 60_exceptions.md R573, R580.)

The words decode whatever the code. SYSCALL takes the System Call exception (code 8) and BREAK the Breakpoint exception (code 9) in every mode: the next state is the entry of that exception, with that ExcCode, EXL set and no delay slot pending, and no general register, HI, LO, floating-point register, TLB entry or byte of memory changed. -/
def Obligations.SystemCallAndBreak : Prop :=
  ∀ (s : State) (code : BitVec 20),
    Decodes (0#6 ++ code ++ 12#6) (.syscall code) ∧ Decodes (0#6 ++ code ++ 13#6) (.brk code) ∧
    (∃ t, exec (.syscall code) s = .next t ∧ t = takeException .systemCall s ∧ t.cp0.cause.excCode = 8 ∧
      t.cp0.status.exl = true ∧ t.inSlot = false ∧ KeepsAllBut s t [.cp0, .hazards, .late]) ∧
    (∃ t, exec (.brk code) s = .next t ∧ t = takeException .breakpoint s ∧ t.cp0.cause.excCode = 9 ∧
      t.cp0.status.exl = true ∧ t.inSlot = false ∧ KeepsAllBut s t [.cp0, .hazards, .late])

/-- Taking an exception: EPC, BD, ExcCode, EXL, the vector, with EXL = 0 and with EXL = 1, and nothing else. (60_exceptions.md R580 to R582, R590, 43_branch_jump.md R341, 44_trap_sys.md R394, 92_eei_decisions.md D33, 20_memory.md R134.)

In a state with EXL = 0 and no late write open, every exception e: EPC gets the address of the instruction, or of the branch before it and BD 1 in a delay slot (BD 0 otherwise); ExcCode is the code of e; Status.EXL becomes 1; CE is the unit for Coprocessor Unusable, and unspecified otherwise (D33, log 32); the program goes to TrapBase with the offset of e and no delay slot. An Address Error also loads VAddr, a TLB exception VAddr, EntryHi.R and VPN, EntryLo, TLBSet.SET and ShiftAmt; every other field of every coprocessor-0 register, the general and floating-point registers, memory, TLB, caches and LLbit are unchanged. The precise floating-point interrupt also makes the CPU see FPI (log 29); the model's records of hazards and late writes are emptied (logs 46 and 47). In a state with EXL = 1 and no late write open, every exception e: EPC and BD keep their values (D33, log 32), ExcCode and CE are written as with EXL = 0, Status is unchanged, what e loads is what it loads with EXL = 0, every other field of every coprocessor-0 register is unchanged, and the program goes to TrapBase + 0xc00, for a TLB Refill too. -/
def Obligations.ExceptionEntry : Prop :=
  (∀ (e : Exc) (s : State), s.late.status = none → s.late.trapBase = none → s.cp0.status.exl = false →
    let t := takeException e s
    t.cp0 = { e.load s.draws s.cp0 with
      epc := if s.inSlot then s.pc - 4 else s.pc
      cause := { s.cp0.cause with bd := s.inSlot, excCode := e.code, ce := t.cp0.cause.ce }
      status := { s.cp0.status with exl := true } } ∧
    (∀ u, e = .coprocessorUnusable u → t.cp0.cause.ce = u) ∧
    (let c := e.load s.draws s.cp0;
      c = { s.cp0 with
        vAddr := c.vAddr, entryHi := { c.entryHi with asid := s.cp0.entryHi.asid }, entryLo := c.entryLo,
        tlbSet := { c.tlbSet with p := s.cp0.tlbSet.p }, shiftAmt := c.shiftAmt } ∧
      (∀ va, e = .addressErrorLoad va ∨ e = .addressErrorStore va → c = { s.cp0 with vAddr := va }) ∧
      ((∀ va, e ≠ .addressErrorLoad va ∧ e ≠ .addressErrorStore va) →
        (∀ st va k w, e ≠ .tlbRefill st va k w ∧ e ≠ .tlbInvalid st va k w ∧ e ≠ .tlbModified va k w) → c = s.cp0)) ∧
    t.pc = s.cp0.trapBase.r ++ s.cp0.trapBase.c ++ 0#11 ++ s.cp0.trapBase.base ++ e.offset ∧
    t.npc = t.pc + 4 ∧ t.inSlot = false ∧ t.fpiSeen = (if e = .floatingPoint then true else s.fpiSeen) ∧ t.hazards = [] ∧
    t.late = Late.closed ∧ KeepsAllBut s t [.cp0, .fpiSeen, .hazards, .late]) ∧
  (∀ (e : Exc) (s : State), s.late.status = none → s.late.trapBase = none → s.cp0.status.exl = true →
    let t := takeException e s
    t.cp0 = { e.load s.draws s.cp0 with
      cause := { s.cp0.cause with excCode := e.code, ce := t.cp0.cause.ce } } ∧
    t.cp0.epc = s.cp0.epc ∧ t.cp0.cause.bd = s.cp0.cause.bd ∧ t.cp0.status = s.cp0.status ∧
    (∀ u, e = .coprocessorUnusable u → t.cp0.cause.ce = u) ∧
    (let c := e.load s.draws s.cp0;
      c = { s.cp0 with
        vAddr := c.vAddr, entryHi := { c.entryHi with asid := s.cp0.entryHi.asid }, entryLo := c.entryLo,
        tlbSet := { c.tlbSet with p := s.cp0.tlbSet.p }, shiftAmt := c.shiftAmt } ∧
      (∀ va, e = .addressErrorLoad va ∨ e = .addressErrorStore va → c = { s.cp0 with vAddr := va }) ∧
      ((∀ va, e ≠ .addressErrorLoad va ∧ e ≠ .addressErrorStore va) →
        (∀ st va k w, e ≠ .tlbRefill st va k w ∧ e ≠ .tlbInvalid st va k w ∧ e ≠ .tlbModified va k w) → c = s.cp0)) ∧
    t.pc = s.cp0.trapBase.r ++ s.cp0.trapBase.c ++ 0#11 ++ s.cp0.trapBase.base ++ 0xc00#12 ∧
    t.npc = t.pc + 4 ∧ t.inSlot = false ∧ t.fpiSeen = (if e = .floatingPoint then true else s.fpiSeen) ∧ t.hazards = [] ∧
    t.late = Late.closed ∧ KeepsAllBut s t [.cp0, .fpiSeen, .hazards, .late])

/-- The vector offset of every exception by region, and its code. (60_exceptions.md R582, R561, 10_state.md R44.)

With EXL = 0 and no late write open: a TLB Refill goes to the vector with offset 0x000, 0x400 or 0x800 for an address of region 00, 01 or 11; every other exception to the one with offset 0xc00. With EXL = 1 every exception goes to the one with offset 0xc00. The codes are those of the table (R44, R561): Int 0, Mod 1, TLBL 2, TLBS 3, AdEL 4, AdES 5, Sys 8, Bp 9, RI 10, CpU 11, Ov 12, Tr 13. -/
def Obligations.ExceptionCodesAndOffsets : Prop :=
  (∀ (s : State) (st : Bool) (va : Word) (k : Nat) (w : BitVec 2), s.late.status = none → s.late.trapBase = none →
      s.cp0.status.exl = false →
      (va.toNat / 2 ^ 62 = 0 → (takeException (.tlbRefill st va k w) s).pc = s.cp0.trapBase.vector 0x000) ∧
      (va.toNat / 2 ^ 62 = 1 → (takeException (.tlbRefill st va k w) s).pc = s.cp0.trapBase.vector 0x400) ∧
      (va.toNat / 2 ^ 62 = 3 → (takeException (.tlbRefill st va k w) s).pc = s.cp0.trapBase.vector 0x800)) ∧
    (∀ (s : State) (e : Exc), s.late.status = none → s.late.trapBase = none →
      (s.cp0.status.exl = true ∨ ∀ st va k w, e ≠ .tlbRefill st va k w) →
      (takeException e s).pc = s.cp0.trapBase.vector 0xc00) ∧
    (∀ (va : Word) (k : Nat) (w u : BitVec 2),
      Exc.interrupt.code = 0 ∧ Exc.floatingPoint.code = 0 ∧ (Exc.tlbModified va k w).code = 1 ∧
      (Exc.tlbRefill false va k w).code = 2 ∧ (Exc.tlbRefill true va k w).code = 3 ∧
      (Exc.tlbInvalid false va k w).code = 2 ∧ (Exc.tlbInvalid true va k w).code = 3 ∧
      (Exc.addressErrorLoad va).code = 4 ∧ (Exc.addressErrorStore va).code = 5 ∧ Exc.systemCall.code = 8 ∧
      Exc.breakpoint.code = 9 ∧ Exc.reservedInstruction.code = 10 ∧ (Exc.coprocessorUnusable u).code = 11 ∧
      Exc.overflow.code = 12 ∧ Exc.trap.code = 13)

/-- What TLB and address exceptions load: VAddr, EntryHi, TLBSet, ShiftAmt. (R134, 20_memory.md R133, R136, 10_state.md R34, R37, R39.)

Every TLB exception for an address va with page size 2^k and set w loads VAddr with va, EntryHi.R and VPN from va (bits inside a page of 1 MB or more zeroed), TLBSet.SET with w and ShiftAmt with k, and keeps EntryHi.ASID and TLBSet.P; all but the refill keep EntryLo. An Address Error loads VAddr and leaves EntryHi, EntryLo, TLBSet and ShiftAmt alone. -/
def Obligations.TlbExceptionRegisters : Prop :=
  ∀ (s : State) (st : Bool) (va : Word) (k : Nat) (w : BitVec 2), 12 ≤ k → k ≤ 24 →
    (∀ e, e = .tlbRefill st va k w ∨ e = .tlbInvalid st va k w ∨ e = .tlbModified va k w →
      let c := (takeException e s).cp0
      c.vAddr = va ∧ c.entryHi.r.toNat = va.toNat / 2 ^ 62 ∧
      c.entryHi.vpn.toNat * 2 ^ 19 = va.toNat % 2 ^ 48 / 2 ^ (max k 19) * 2 ^ (max k 19) ∧
      c.entryHi.asid = s.cp0.entryHi.asid ∧ c.tlbSet.set = w ∧ c.tlbSet.p = s.cp0.tlbSet.p ∧ c.shiftAmt.toNat = k ∧
      ((∀ st', e ≠ .tlbRefill st' va k w) → c.entryLo = s.cp0.entryLo)) ∧
    (∀ e, e = .addressErrorLoad va ∨ e = .addressErrorStore va →
      let c := (takeException e s).cp0
      c.vAddr = va ∧ c.entryHi = s.cp0.entryHi ∧ c.entryLo = s.cp0.entryLo ∧ c.tlbSet = s.cp0.tlbSet ∧
      c.shiftAmt = s.cp0.shiftAmt)

/-- ERET clears EXL and LLbit and goes to EPC with no delay slot. (R522.) -/
def Obligations.ExceptionReturn : Prop :=
  ∀ s : State, Decodes 0x42000018 .eret ∧
    NeedsCp0 .eret s ((s.inSlot = true → exec .eret s = .refused .transferInDelaySlot) ∧
      (s.inSlot = false → ∃ t, exec .eret s = .next t ∧ t.pc = s.cp0.epc ∧ t.npc = s.cp0.epc + 4 ∧ t.inSlot = false ∧
        t.llbit = false ∧ t.cp0 = { s.cp0 with status := { s.cp0.status with exl := false } } ∧
        KeepsAllBut s t [.cp0, .llbit, .hazards, .late]))

/-- An exception and the ERET of its handler come back to the instruction, or to the branch before it. (60_exceptions.md R580, R583, 47_cop0.md R522.)

For every state with EXL = 0 and no late write open and every exception: ERET executed at the handler's entry completes with the program at the interrupted instruction, or at the branch before it when it was in a delay slot, and with Status as it was before the exception. -/
def Obligations.ReturnResumesInterruptedInstruction : Prop :=
  ∀ (s : State) (e : Exc), s.late.status = none → s.cp0.status.exl = false →
    ∃ t, exec .eret (takeException e s) = .next t ∧ t.pc = (if s.inSlot then s.pc - 4 else s.pc) ∧
      t.npc = t.pc + 4 ∧ t.inSlot = false ∧ t.cp0.status = s.cp0.status ∧ KeepsAllBut s t [.cp0, .llbit, .fpiSeen, .hazards, .late]

/-- An NMI that is taken saves the program counter, sets Cause.NMI and EXL, and goes to the reset vector. (70_reset_and_hazards.md R642, 60_exceptions.md R590.)

Taking an NMI writes EPC and BD whatever EXL holds, sets Cause.NMI and EXL, ends any delay slot, goes to 0x9000_0000_1fc0_0000 and withdraws the request; no other coprocessor-0 field, general or floating-point register, TLB entry, cache line or byte of memory changes. Between two instructions no NMI is taken without a request, and when one is taken (its delivery time is free, log 31) the step is this entry, before any interrupt. -/
def Obligations.NonMaskableInterrupt : Prop :=
  (∀ b : State, let t := takeNmi b
    t.pc = 0x900000001fc00000 ∧ t.npc = t.pc + 4 ∧ t.inSlot = false ∧
    t.cp0 = { b.cp0 with
      epc := if b.inSlot then b.pc - 4 else b.pc
      cause := { b.cp0.cause with bd := b.inSlot, nmi := true }
      status := { b.cp0.status with exl := true } } ∧
    t.nmiPending = false ∧ KeepsAllBut b t [.cp0, .nmiPending, .hazards, .late]) ∧
  (∀ s : State, let b := s.boundary
    (b.nmiPending = false → b.nmiTaken = false) ∧
    (b.nmiPending = true → b.nmiTaken = Config.freeBool .nmi b.draws) ∧
    (b.nmiTaken = true → step s = .next (takeNmi b)))

/-- An interrupt is taken only with EXL = 0 and an enabled cause, and then as the exception with code Int. (R594, 60_exceptions.md R597.)

With no late write to Status or Cause open at the boundary: no interrupt is taken unless EXL is 0 and either IE is 1 and a pending bit is unmasked, or VCI, BE or the floating-point condition is set; where that holds, its delivery time is free (log 30); and where one is taken and no NMI is, the step is the entry of the Int exception from the state between the two instructions, with ExcCode 0. -/
def Obligations.InterruptOnlyWhenEnabled : Prop :=
  ∀ s : State, let b := s.boundary
    b.late.status = none → b.late.cause = none →
    let enabled := b.cp0.status.exl = false ∧
      ((b.cp0.status.ie = true ∧ ∃ n, n < 11 ∧ b.pendingBits.getLsbD n = true ∧ b.cp0.status.im.getLsbD n = true) ∨
        b.cp0.cause.vci = true ∨ b.cp0.cause.be = true ∨ b.fpiSeen = true)
    (¬enabled → b.interrupted = false) ∧ (enabled → b.interrupted = Config.freeBool .interrupt b.draws) ∧
    (b.nmiTaken = false → b.interrupted = true →
      ∃ t, step s = .next t ∧ t = takeException .interrupt b ∧ t.cp0.cause.excCode = 0)

/-- DMFC0 reads the numbered coprocessor-0 register into rt, where coprocessor 0 is usable. (47_cop0.md R520, R529, 10_state.md R28 to R51.)

The word decodes to DMFC0. Where coprocessor 0 is usable, rt gets the image of the register and nothing else changes, for every register number: UBase, PBase, GBase, VAddr, EPC, Work0 and Work1 as 64 bits, Counts and ShiftAmt zero extended, ICache the IASID in bits 7 to 0, the others as their layout places them (logs 1 and 2), a reserved number some value. Otherwise Coprocessor Unusable is taken. -/
def Obligations.MoveFromCoprocessor0 : Prop :=
  ∀ (s : State) (rt rd : Reg), Decodes (rType 16 1 rt rd 0 0) (.dmfc0 rt rd) ∧
    NeedsCp0 (.dmfc0 rt rd) s (WritesReg (.dmfc0 rt rd) s rt (s.readCop0 rd)) ∧
    s.readCop0 4 = s.cp0.uBase ∧ s.readCop0 20 = s.cp0.pBase ∧ s.readCop0 21 = s.cp0.gBase ∧ s.readCop0 8 = s.cp0.vAddr ∧
    s.readCop0 14 = s.cp0.epc ∧ s.readCop0 18 = s.cp0.work0 ∧ s.readCop0 19 = s.cp0.work1 ∧
    s.readCop0 9 = s.cp0.counts.setWidth 64 ∧ s.readCop0 5 = s.cp0.shiftAmt.setWidth 64 ∧
    s.readCop0 12 = s.cp0.status.image ∧ s.readCop0 13 = s.cp0.cause.image s.fpiSeen s.ip10 ∧
    s.readCop0 0 = s.cp0.tlbSet.image ∧ s.readCop0 2 = s.cp0.entryLo.image ∧ s.readCop0 6 = s.cp0.trapBase.image ∧
    s.readCop0 7 = s.cp0.badPAddr.image ∧ s.readCop0 10 = s.cp0.entryHi.image ∧ s.readCop0 15 = Config.pridValue ∧
    s.readCop0 16 = s.cp0.config.image ∧ s.readCop0 24 = wiredImage s.cp0.wired ∧ s.readCop0 28 = s.cp0.dCache.image ∧
    s.readCop0 29 = s.cp0.iasid.setWidth 64

/-- DMTC0 writes the numbered register by its own rule and nothing else. (47_cop0.md R521, R529, 10_state.md R28 to R51.)

The word decodes to DMTC0. Where coprocessor 0 is usable and, for Status, no must-be-zero bit is set, it completes: 64-bit registers take all bits of rt, Counts the low word, ICache bits 7 to 0, the others the bits of their fields (logs 1 and 2); ShiftAmt, BadPAddr, PRId and reserved numbers ignore the write; in Cause only IP0, IP1 and NMI take the bits and IP8, IP9 and VCI can only be cleared (where these bits stand is partly presumed, log 1; what a write does to each is log 56). Nothing outside coprocessor 0 changes but the record of late writes (log 47). A Status write with a must-be-zero bit set is refused (undefined, log 36). -/
def Obligations.MoveToCoprocessor0 : Prop :=
  ∀ (s : State) (rt rd : Reg), let v := s.reg rt
    Decodes (rType 16 5 rt rd 0 0) (.dmtc0 rt rd) ∧
    NeedsCp0 (.dmtc0 rt rd) s
      ((rd = 12 → StatusReg.reservedSet v = true → exec (.dmtc0 rt rd) s = .refused .statusReservedWrite) ∧
      (¬(rd = 12 ∧ StatusReg.reservedSet v = true) →
        ∃ t, exec (.dmtc0 rt rd) s = .next t ∧ Advances s t ∧ KeepsAllBut s t [.cp0, .late] ∧
        (rd = 4 → t.cp0 = { s.cp0 with uBase := v }) ∧ (rd = 20 → t.cp0 = { s.cp0 with pBase := v }) ∧
        (rd = 21 → t.cp0 = { s.cp0 with gBase := v }) ∧ (rd = 8 → t.cp0 = { s.cp0 with vAddr := v }) ∧
        (rd = 14 → t.cp0 = { s.cp0 with epc := v }) ∧ (rd = 18 → t.cp0 = { s.cp0 with work0 := v }) ∧
        (rd = 19 → t.cp0 = { s.cp0 with work1 := v }) ∧ (rd = 9 → t.cp0 = { s.cp0 with counts := v.setWidth 32 }) ∧
        (rd = 12 → t.cp0 = { s.cp0 with status := StatusReg.ofWord v }) ∧
        (rd = 0 → t.cp0 = { s.cp0 with tlbSet := TlbSetReg.ofWord v }) ∧
        (rd = 2 → t.cp0 = { s.cp0 with entryLo := TlbLo.ofWord v }) ∧
        (rd = 6 → t.cp0 = { s.cp0 with trapBase := TrapBaseReg.ofWord v }) ∧
        (rd = 10 → t.cp0 = { s.cp0 with entryHi := TlbHi.ofWord v }) ∧
        (rd = 16 → t.cp0 = { s.cp0 with config := ConfigReg.ofWord v }) ∧
        (rd = 24 → t.cp0 = { s.cp0 with wired := wiredOfWord v }) ∧
        (rd = 28 → t.cp0 = { s.cp0 with dCache := DCacheReg.ofWord v }) ∧
        (rd = 29 → t.cp0 = { s.cp0 with iasid := v.extractLsb' 0 8 }) ∧
        (rd = 13 → ∃ c, t.cp0 = { s.cp0 with cause := c } ∧
          c = { s.cp0.cause with ip := c.ip, vci := c.vci, nmi := v.getLsbD 27 } ∧
          c.ip.getLsbD 0 = v.getLsbD 8 ∧ c.ip.getLsbD 1 = v.getLsbD 9 ∧
          (∀ n, 2 ≤ n → n < 8 → c.ip.getLsbD n = s.cp0.cause.ip.getLsbD n) ∧
          c.ip.getLsbD 8 = (s.cp0.cause.ip.getLsbD 8 && v.getLsbD 16) ∧
          c.ip.getLsbD 9 = (s.cp0.cause.ip.getLsbD 9 && v.getLsbD 17) ∧ c.vci = (s.cp0.cause.vci && v.getLsbD 25)) ∧
        (rd ∉ [0, 2, 4, 6, 8, 9, 10, 12, 13, 14, 16, 18, 19, 20, 21, 24, 28, 29] → t.cp0 = s.cp0)))

/-- The bits of TLBSet, EntryLo, EntryHi, TrapBase, Status, Cause, BadPAddr, Config, Wired, DCache, FSR and FConfig; all but Cause, BadPAddr, FConfig read back. (10_state.md R7, R30 to R32, R35, R36, R39, R40, R42, R47, R49, R50, R53, R54.)

The image of TLBSet, EntryLo, EntryHi, TrapBase, Status, Cause, BadPAddr, Config, Wired, DCache, the FSR and FConfig is the sum of its fields at their positions, so no two share a bit and every other bit is 0; the fields a written word gives TLBSet, EntryLo, EntryHi, TrapBase, Status, Config, Wired, DCache and the FSR are its bits at these positions, and taken from the image they give the value back. The spec's positions: TLBSet.SET, R, C and Base of TrapBase, R and VPN of EntryHi, EXL, FR, CU0, CU1, UPS and KPS of Status, BD, NMI, IP and ExcCode of Cause. Proposed by the spec from outside its source (PRESUMED, log 1): those of EntryLo, Wired, FConfig and the FSR, EntryHi.ASID, IE, KU, UX, XX, IM, RE and DM of Status, CE, BE, VCI and FPI of Cause, DB, IB, DC, IC and BE of Config. The model's choice (log 2): those of DCache and BadPAddr. Free (log 2): TLBSet.P, and PM, ICE and SMM of Config, apart from each other and from the other fields. -/
def Obligations.RegisterImagesReadBack : Prop :=
  (∀ r : TlbSetReg, TlbSetReg.ofWord r.image = r) ∧ (∀ r : TlbLo, TlbLo.ofWord r.image = r) ∧
    (∀ r : TlbHi, TlbHi.ofWord r.image = r) ∧ (∀ r : TrapBaseReg, TrapBaseReg.ofWord r.image = r) ∧
    (∀ r : StatusReg, StatusReg.ofWord r.image = r) ∧ (∀ r : ConfigReg, ConfigReg.ofWord r.image = r) ∧
    (∀ r : DCacheReg, DCacheReg.ofWord r.image = r) ∧ (∀ r : Vector WiredPair 4, wiredOfWord (wiredImage r) = r) ∧
    (∀ r : Fsr, Fsr.ofWord r.image = r) ∧
    (∀ r : TlbSetReg, r.image.toNat = r.set.toNat + r.p.toNat * 2 ^ Layout.tlbSetP) ∧
    (2 ≤ Layout.tlbSetP ∧ Layout.tlbSetP < 64) ∧
    (∀ r : TlbLo, r.image.toNat = r.v.toNat * 2 ^ 7 + r.d.toNat * 2 ^ 8 + r.c.toNat * 2 ^ 9 + r.pfn.toNat * 2 ^ 12) ∧
    (∀ r : TlbHi, r.image.toNat = r.asid.toNat * 2 ^ 4 + r.vpn.toNat * 2 ^ 19 + r.r.toNat * 2 ^ 62) ∧
    (∀ r : TrapBaseReg, r.image.toNat = r.base.toNat * 2 ^ 12 + r.c.toNat * 2 ^ 59 + r.r.toNat * 2 ^ 62) ∧
    (∀ r : StatusReg, r.image.toNat = r.ie.toNat + r.exl.toNat * 2 + r.ku.toNat * 2 ^ 4 + r.ux.toNat * 2 ^ 5 +
      r.xx.toNat * 2 ^ 6 + r.im.toNat * 2 ^ 8 + r.re.toNat * 2 ^ 25 + r.fr.toNat * 2 ^ 26 + r.cu0.toNat * 2 ^ 28 +
      r.cu1.toNat * 2 ^ 29 + r.ups.toNat * 2 ^ 32 + r.kps.toNat * 2 ^ 36 + r.dm.toNat * 2 ^ 40) ∧
    (∀ (r : CauseReg) (fpi ip10 : Bool), (r.image fpi ip10).toNat = r.excCode.toNat * 2 ^ 3 + r.ip.toNat * 2 ^ 8 +
      ip10.toNat * 2 ^ 18 + fpi.toNat * 2 ^ 24 + r.vci.toNat * 2 ^ 25 + r.be.toNat * 2 ^ 26 + r.nmi.toNat * 2 ^ 27 +
      r.ce.toNat * 2 ^ 28 + r.bd.toNat * 2 ^ 63) ∧
    (∀ r : BadPAddrReg, r.image.toNat = r.addr.toNat + r.syn.toNat * 2 ^ 40) ∧
    (∀ r : ConfigReg, r.image.toNat = 1 * 2 ^ 4 + 1 * 2 ^ 5 + 2 * 2 ^ 6 + 3 * 2 ^ 9 + r.be.toNat * 2 ^ 15 +
      r.pm.toNat * 2 ^ Layout.configPm + r.ice.toNat * 2 ^ Layout.configIce + r.smm.toNat * 2 ^ Layout.configSmm) ∧
    (∀ p ∈ [Layout.configPm, Layout.configIce, Layout.configSmm], p < 64 ∧ p ≠ 15 ∧ (p < 4 ∨ 11 < p)) ∧
    [Layout.configPm, Layout.configIce, Layout.configSmm].Nodup ∧
    (∀ r : Vector WiredPair 4, (wiredImage r).toNat =
      r[0].index.toNat + r[0].v.toNat * 2 ^ 7 + r[1].index.toNat * 2 ^ 8 + r[1].v.toNat * 2 ^ 15 +
      r[2].index.toNat * 2 ^ 16 + r[2].v.toNat * 2 ^ 23 + r[3].index.toNat * 2 ^ 24 + r[3].v.toNat * 2 ^ 31) ∧
    (∀ r : DCacheReg, r.image.toNat = r.e.toNat + r.v.toNat * 2 ^ 4 + r.tag.toNat * 2 ^ 12 + r.h.toNat * 2 ^ 63) ∧
    (∀ r : Fsr, r.image.toNat = r.rm.toNat + r.flags.toNat * 2 ^ 2 + r.enable.toNat * 2 ^ 7 + r.cause.toNat * 2 ^ 12 +
      r.e.toNat * 2 ^ 17 + r.fcc.toNat % 2 * 2 ^ 23 + r.fs.toNat * 2 ^ 24 + r.fcc.toNat / 2 * 2 ^ 25) ∧
    (∀ imp rev : BitVec 8, (fConfigImage imp rev).toNat = rev.toNat + imp.toNat * 2 ^ 8) ∧
    (∀ w : Word, TlbSetReg.ofWord w = ⟨w.getLsbD Layout.tlbSetP, w.extractLsb' 0 2⟩ ∧
      TlbLo.ofWord w = ⟨w.extractLsb' 12 28, w.extractLsb' 9 3, w.getLsbD 8, w.getLsbD 7⟩ ∧
      TlbHi.ofWord w = ⟨w.extractLsb' 62 2, w.extractLsb' 19 29, w.extractLsb' 4 8⟩ ∧
      TrapBaseReg.ofWord w = ⟨w.extractLsb' 62 2, w.extractLsb' 59 3, w.extractLsb' 12 36⟩ ∧
      StatusReg.ofWord w =
        { ie := w.getLsbD 0, exl := w.getLsbD 1, ku := w.getLsbD 4, ux := w.getLsbD 5, xx := w.getLsbD 6
          im := w.extractLsb' 8 11, re := w.getLsbD 25, fr := w.getLsbD 26, cu0 := w.getLsbD 28, cu1 := w.getLsbD 29
          ups := w.extractLsb' 32 4, kps := w.extractLsb' 36 4, dm := w.getLsbD 40 } ∧
      ConfigReg.ofWord w =
        { be := w.getLsbD 15, pm := w.getLsbD Layout.configPm, ice := w.getLsbD Layout.configIce
          smm := w.getLsbD Layout.configSmm } ∧
      (∀ x (h : x < 4), (wiredOfWord w)[x]'h = { index := w.extractLsb' (8 * x) 7, v := w.getLsbD (8 * x + 7) }) ∧
      DCacheReg.ofWord w =
        { h := w.getLsbD 63, tag := w.extractLsb' 12 28, v := w.extractLsb' 4 4, e := w.getLsbD 0 }) ∧
    (∀ w : BitVec 32, Fsr.ofWord w =
      { fcc := w.extractLsb' 25 7 ++ w.extractLsb' 23 1, fs := w.getLsbD 24, e := w.getLsbD 17
        cause := w.extractLsb' 12 5, enable := w.extractLsb' 7 5, flags := w.extractLsb' 2 5, rm := w.extractLsb' 0 2 })

/-- TLBW stores EntryHi and EntryLo in the entry VAddr and TLBSet select, TLBR reads it, TLBP finds it. (47_cop0.md R524 to R526, R530, 30_encoding.md R178, 93_implementation_defined.md U12, U13, U32, 92_eei_decisions.md D18.)

Each word decodes (TLBW's is the spec's placeholder, R178, presumed in log 14). Where coprocessor 0 is usable and VAddr selects index i and page size 2^k: with SET not 3, TLBW writes the entry of set SET of class i and no other, and TLBR puts its halves in EntryHi and EntryLo; TLBP sets P to 0 and SET to the one matching set, or P to 1 when none matches, with SET then some value (U13, log 38), and faults on several (D18, log 34). That SET = 3 is refused at TLBW and TLBR is the model's choice (U12, log 36), that a kernel-physical VAddr is refused is R530 with U32 (log 37); otherwise VAddr selects the class of its region and page size. Nothing else changes. -/
def Obligations.TlbReadWriteProbe : Prop :=
  (∀ (s : State) (i : BitVec 7) (k : Nat), s.vAddrEntry = .ok (i, k) →
    Decodes 0x42000002 .tlbw ∧ Decodes 0x42000001 .tlbr ∧ Decodes 0x42000008 .tlbp ∧
    NeedsCp0 .tlbw s
      ((s.cp0.tlbSet.set = 3 → exec .tlbw s = .refused .reservedTlbSet) ∧
      (s.cp0.tlbSet.set ≠ 3 → ∃ t, exec .tlbw s = .next t ∧ Advances s t ∧
        t.tlbEntry i s.cp0.tlbSet.set = ⟨s.cp0.entryHi, s.cp0.entryLo⟩ ∧
        (∀ j w, (j ≠ i ∨ w ≠ s.cp0.tlbSet.set) → t.tlbEntry j w = s.tlbEntry j w) ∧ KeepsAllBut s t [.tlb])) ∧
    NeedsCp0 .tlbr s
      ((s.cp0.tlbSet.set = 3 → exec .tlbr s = .refused .reservedTlbSet) ∧
      (s.cp0.tlbSet.set ≠ 3 → ∃ t, exec .tlbr s = .next t ∧ Advances s t ∧
        t.cp0 = { s.cp0 with
          entryHi := (s.tlbEntry i s.cp0.tlbSet.set).hi, entryLo := (s.tlbEntry i s.cp0.tlbSet.set).lo } ∧
        KeepsAllBut s t [.cp0])) ∧
    NeedsCp0 .tlbp s
      ((s.tlbMatches i s.cp0.vAddr k = [] → ∃ t w, exec .tlbp s = .next t ∧ Advances s t ∧
        t.cp0 = { s.cp0 with tlbSet := ⟨true, w⟩ } ∧ KeepsAllBut s t [.cp0]) ∧
      (∀ w, s.tlbMatches i s.cp0.vAddr k = [w] → ∃ t, exec .tlbp s = .next t ∧ Advances s t ∧
        t.cp0 = { s.cp0 with tlbSet := ⟨false, w⟩ } ∧ KeepsAllBut s t [.cp0]) ∧
      (∀ w x l, s.tlbMatches i s.cp0.vAddr k = w :: x :: l → exec .tlbp s = .fault .tlbMultipleMatch))) ∧
  (∀ s : State, s.cp0.vAddr.extractLsb' 62 2 ≠ 2 →
    (∀ k, pageBitsOf (pageSizeField s.statusView (s.cp0.vAddr.extractLsb' 62 2) false) = some k →
      s.vAddrEntry = .ok (tlbIndex s.cp0.entryHi.asid s.cp0.vAddr k, k)) ∧
    (pageBitsOf (pageSizeField s.statusView (s.cp0.vAddr.extractLsb' 62 2) false) = none → s.usable0 = true →
      exec .tlbp s = .refused .reservedPageSize ∧ (s.cp0.tlbSet.set ≠ 3 →
        exec .tlbr s = .refused .reservedPageSize ∧ exec .tlbw s = .refused .reservedPageSize))) ∧
  (∀ s : State, s.cp0.vAddr.extractLsb' 62 2 = 2 →
    NeedsCp0 .tlbp s (exec .tlbp s = .refused .physicalTlbIndex) ∧
    NeedsCp0 .tlbr s (s.cp0.tlbSet.set ≠ 3 → exec .tlbr s = .refused .physicalTlbIndex) ∧
    NeedsCp0 .tlbw s (s.cp0.tlbSet.set ≠ 3 → exec .tlbw s = .refused .physicalTlbIndex))

/-- DCTW writes the tag, exclusive bit and half the valid bits of the selected line, DCTR reads them. (47_cop0.md R527, R528, 10_state.md R50, R56, 30_encoding.md R178, 70_reset_and_hazards.md R644.)

The words decode (the spec's placeholders, R178, presumed in log 14). With the line VAddr[13:5] and its half VAddr[4]: where coprocessor 0 is usable DCTW gives the line the tag and exclusive bit of DCache and that half of its valid bits, keeps the other half, the data and every other line, and notes the half line as written; DCTR gives DCache the tag and exclusive bit of the line when DCTW has written either half of it since reset, and the half's valid bits when it has written that half, with H unspecified. Before that DCTR completes with some value there (U4; the record of written half lines is the model's, log 9). The order of the V bits and that DCTW keeps the data are the model's choice (log 42). Nothing else changes. -/
def Obligations.DataCacheTagReadWrite : Prop :=
  ∀ s : State, let k := (s.cp0.vAddr.extractLsb' 5 9).toNat
    let l := s.dline k
    Decodes 0x42000005 .dctw ∧ Decodes 0x42000004 .dctr ∧
    NeedsCp0 .dctw s (∃ t, exec .dctw s = .next t ∧ Advances s t ∧ KeepsAllBut s t [.dcache, .dcacheWritten] ∧
      (∀ n, (CMap.get dcacheUnwritten t.dcacheWritten n = true ↔
        CMap.get dcacheUnwritten s.dcacheWritten n = true ∨ n = (s.cp0.vAddr.extractLsb' 4 10).toNat)) ∧
      (∀ j, j ≠ k → t.dline j = s.dline j) ∧ (t.dline k).tag = s.cp0.dCache.tag ∧
      (t.dline k).exclusive = s.cp0.dCache.e ∧ (t.dline k).data = l.data ∧
      ∀ n, n < 4 → (t.dline k).valid.getLsbD n = (if s.cp0.vAddr.getLsbD 4 then l.valid.getLsbD n else s.cp0.dCache.v.getLsbD n) ∧
        (t.dline k).valid.getLsbD (n + 4) = (if s.cp0.vAddr.getLsbD 4 then s.cp0.dCache.v.getLsbD n else l.valid.getLsbD (n + 4))) ∧
    NeedsCp0 .dctr s (∃ t, exec .dctr s = .next t ∧ Advances s t ∧ KeepsAllBut s t [.cp0] ∧
      t.cp0 = { s.cp0 with dCache := t.cp0.dCache } ∧
      (CMap.get dcacheUnwritten s.dcacheWritten (2 * k) = true ∨ CMap.get dcacheUnwritten s.dcacheWritten (2 * k + 1) = true →
        t.cp0.dCache.tag = l.tag ∧ t.cp0.dCache.e = l.exclusive) ∧
      (CMap.get dcacheUnwritten s.dcacheWritten (s.cp0.vAddr.extractLsb' 4 10).toNat = true →
        ∀ n, n < 4 → t.cp0.dCache.v.getLsbD n = l.valid.getLsbD (if s.cp0.vAddr.getLsbD 4 then n + 4 else n)))

/-- In user mode without CU0 no instruction changes Status but by an exception, nor the TLB, TrapBase, Config or the bases. (47_cop0.md R529, 60_exceptions.md R580, R610, 20_memory.md R134.)

For every instruction and every state in user mode with CU0 = 0: if the instruction gives a next state, then the TLB, the instruction cache, TrapBase, Config, Wired, Work0, Work1, UBase, PBase, GBase and EntryHi.ASID are unchanged, and Status is unchanged or differs only in EXL being set with the program at an exception vector. -/
def Obligations.UserModeKeepsSystemState : Prop :=
  ∀ (i : Instr) (s t : State), s.user = true → s.usable0 = false → exec i s = .next t →
    t.tlb = s.tlb ∧ t.icache = s.icache ∧ t.cp0.trapBase = s.cp0.trapBase ∧ t.cp0.config = s.cp0.config ∧
    t.cp0.wired = s.cp0.wired ∧ t.cp0.work0 = s.cp0.work0 ∧ t.cp0.work1 = s.cp0.work1 ∧ t.cp0.uBase = s.cp0.uBase ∧
    t.cp0.pBase = s.cp0.pBase ∧ t.cp0.gBase = s.cp0.gBase ∧ t.cp0.entryHi.asid = s.cp0.entryHi.asid ∧
    (t.cp0.status = s.cp0.status ∨
      (t.cp0.status = { s.cp0.status with exl := true } ∧
        ∃ off, t.pc = s.trapBaseView.vector off ∧ t.inSlot = false))

/-- Only LL and LLD set LLbit; of the instructions only ERET clears it, and an invalidation of data cache copies. (42_loadstore.md R324, 20_memory.md R154, R156, R165, 92_eei_decisions.md D20.)

For every instruction and state: if the instruction gives a next state in which LLbit is set, then it was set before or the instruction is LL or LLD; if LLbit was set and is clear after it, the instruction is ERET or one that repaired a virtual synonym in the streaming cache, rewriting that of a sector held under another one, which invalidates data cache copies (D20; taking a sector that was not held does not clear it; that every such invalidation clears LLbit is its decision). -/
def Obligations.LinkBitSetOnlyByLinkedLoads : Prop :=
  ∀ (i : Instr) (s t : State), exec i s = .next t →
    (t.llbit = true → s.llbit = true ∨ (∃ b r o, i = .ll b r o) ∨ ∃ b r o, i = .lld b r o) ∧
    (s.llbit = true → t.llbit = false → i = .eret ∨ Resynonymed s t)

/-- A decoded instruction too close to an earlier one is refused, by every row of the hazard table; one far enough runs. (70_reset_and_hazards.md R660 to R668, R671, 60_exceptions.md R572, R590, 93_implementation_defined.md U17, 92_eei_decisions.md D39.)

For every state and decoded instruction that is enabled: if a recorded instruction stands fewer SSNOPs before it than the hazard table asks for (but a DMTC0 to EntryLo directly before TLBW), or it is a floating-point one fewer than FP_DM_WAIT instructions after a change of Status.DM, running it is refused by name; otherwise it runs as exec says. One that is not enabled takes its Coprocessor Unusable or Reserved Instruction exception however close it comes (R572). Every row of R668 that refuses is listed with its count, and the part each instruction plays; no other pair asks for an SSNOP, no other instruction plays a part, and each is recorded only as the part it plays. What is recorded: the instruction just run, at distance 0, and the earlier ones one instruction, and at an SSNOP one SSNOP, further, unless a newer one of the same kind or four SSNOPs replaced them. That the whole table applies (HAZARD_POLICY, D39) and the record are the model's choice (log 46). -/
def Obligations.HazardPairsRefused : Prop :=
  (∀ (s : State) (w : IWord) (i : Instr), decodeWord w = .ok i →
      (s.barred i = false → s.hazardViolation i = true → runWord w s = .refused .hazardViolation) ∧
      (s.hazardViolation i = false → runWord w s = exec i (s.recordHazards i)) ∧
      (s.barred i = true → ∃ e, (e = .reservedInstruction ∨ ∃ u, e = .coprocessorUnusable u) ∧
        runWord w s = .next (takeException e (s.recordHazards i)))) ∧
    (∀ (s : State) (i : Instr), s.hazardViolation i = true ↔
      (∃ e ∈ s.hazards, e.ssnops < ssnopsRequired .table e.kind (hazardRole i) ∧
        ¬(e.kind = .dmtc0 2 ∧ hazardRole i = .tlbw ∧ e.insns = 0)) ∨
      (isFloat i = true ∧ ∃ e ∈ s.hazards, e.kind = .dmChange ∧ e.insns < Config.fpDmWait)) ∧
    (∀ (q r : Reg) (store : Bool),
      ssnopsRequired .table .dmfc0 (.dmfc0 r) = 1 ∧ ssnopsRequired .table .dmfc0 (.dmtc0 r) = 1 ∧
      ssnopsRequired .table .dmfc0 .link = 1 ∧ ssnopsRequired .table (.dmtc0 q) (.dmfc0 r) = 2 ∧
      ssnopsRequired .table (.dmtc0 q) (.dmtc0 r) = 1 ∧ ssnopsRequired .table (.dmtc0 q) .link = 2 ∧
      ssnopsRequired .table (.dmtc0 8) .tlbr = 2 ∧ ssnopsRequired .table (.dmtc0 8) .tlbw = 2 ∧
      ssnopsRequired .table (.dmtc0 8) .tlbp = 2 ∧ ssnopsRequired .table (.dmtc0 8) .dctr = 2 ∧
      ssnopsRequired .table (.dmtc0 8) .dctw = 2 ∧ ssnopsRequired .table (.dmtc0 12) .tlbr = 2 ∧
      ssnopsRequired .table (.dmtc0 12) .tlbw = 2 ∧ ssnopsRequired .table (.dmtc0 12) .tlbp = 2 ∧
      ssnopsRequired .table (.dmtc0 0) .tlbr = 2 ∧ ssnopsRequired .table (.dmtc0 0) .tlbw = 2 ∧
      ssnopsRequired .table (.dmtc0 0) .tlbp = 2 ∧ ssnopsRequired .table (.dmtc0 10) .tlbr = 2 ∧
      ssnopsRequired .table (.dmtc0 10) .tlbw = 2 ∧ ssnopsRequired .table (.dmtc0 10) .tlbp = 2 ∧
      ssnopsRequired .table (.dmtc0 2) .tlbr = 2 ∧ ssnopsRequired .table (.dmtc0 2) .tlbw = 2 ∧
      ssnopsRequired .table (.dmtc0 2) .tlbp = 2 ∧ ssnopsRequired .table (.dmtc0 28) .dctw = 2 ∧
      ssnopsRequired .table .tlbr (.memory store) = 3 ∧ ssnopsRequired .table .tlbw (.memory store) = 3 ∧
      ssnopsRequired .table .tlbp (.memory store) = 3 ∧ ssnopsRequired .table .tlbp (.dmfc0 0) = 4 ∧
      ssnopsRequired .table .tlbr (.dmfc0 10) = 4 ∧ ssnopsRequired .table .tlbr (.dmfc0 2) = 4 ∧
      ssnopsRequired .table .dctr (.dmfc0 28) = 3 ∧ ssnopsRequired .table .link (.dmfc0 r) = 1 ∧
      ssnopsRequired .table .link (.dmtc0 r) = 1 ∧ ssnopsRequired .table .tlbr (.dmtc0 8) = 2 ∧
      ssnopsRequired .table .tlbw (.dmtc0 8) = 2 ∧ ssnopsRequired .table .tlbp (.dmtc0 8) = 2 ∧
      ssnopsRequired .table .dctr (.dmtc0 8) = 2 ∧ ssnopsRequired .table .dctw (.dmtc0 8) = 2 ∧
      ssnopsRequired .table .intStore (.dmtc0 8) = 1 ∧ ssnopsRequired .table (.dmtc0 8) (.memory true) = 1 ∧
      ssnopsRequired .table .tlbr (.dmtc0 10) = 2 ∧ ssnopsRequired .table .tlbr (.dmtc0 2) = 2 ∧
      ssnopsRequired .table .tlbp (.dmtc0 0) = 2 ∧ ssnopsRequired .table .dctr (.dmtc0 28) = 2 ∧
      ssnopsRequired .table .pageSizeChange (.memory store) = 3 ∧
      ssnopsRequired .table .asidChange (.memory store) = 3 ∧ ssnopsRequired .table (.dmtc0 14) .eret = 2 ∧
      ssnopsRequired .table (.dmtc0 12) .eret = 4) ∧
    (∀ (x q r : Reg) (o : BitVec 16) (j : BitVec 26) (h : BitVec 5),
      hazardRole (.dmfc0 x r) = .dmfc0 r ∧ hazardRole (.dmtc0 x r) = .dmtc0 r ∧ hazardRole (.tlbr) = .tlbr ∧
      hazardRole (.tlbw) = .tlbw ∧ hazardRole (.tlbp) = .tlbp ∧ hazardRole (.dctr) = .dctr ∧
      hazardRole (.dctw) = .dctw ∧ hazardRole (.eret) = .eret ∧ hazardRole (.jal j) = .link ∧
      hazardRole (.jalr x r) = .link ∧ hazardRole (.bltzal x o) = .link ∧ hazardRole (.bgezal x o) = .link ∧
      hazardRole (.bltzall x o) = .link ∧ hazardRole (.bgezall x o) = .link ∧ hazardRole (.sb x r o) = .memory true ∧
      hazardRole (.sh x r o) = .memory true ∧ hazardRole (.sw x r o) = .memory true ∧
      hazardRole (.sd x r o) = .memory true ∧ hazardRole (.swl x r o) = .memory true ∧
      hazardRole (.swr x r o) = .memory true ∧ hazardRole (.sdl x r o) = .memory true ∧
      hazardRole (.sdr x r o) = .memory true ∧ hazardRole (.sc x r o) = .memory true ∧
      hazardRole (.scd x r o) = .memory true ∧ hazardRole (.lb x r o) = .memory false ∧
      hazardRole (.lbu x r o) = .memory false ∧ hazardRole (.lh x r o) = .memory false ∧
      hazardRole (.lhu x r o) = .memory false ∧ hazardRole (.lw x r o) = .memory false ∧
      hazardRole (.lwu x r o) = .memory false ∧ hazardRole (.ld x r o) = .memory false ∧
      hazardRole (.lwl x r o) = .memory false ∧ hazardRole (.lwr x r o) = .memory false ∧
      hazardRole (.ldl x r o) = .memory false ∧ hazardRole (.ldr x r o) = .memory false ∧
      hazardRole (.ll x r o) = .memory false ∧ hazardRole (.lld x r o) = .memory false ∧
      hazardRole (.lwc1 x r o) = .memory false ∧ hazardRole (.ldc1 x r o) = .memory false ∧
      hazardRole (.swc1 x r o) = .memory false ∧ hazardRole (.sdc1 x r o) = .memory false ∧
      hazardRole (.pref x h o) = .memory false ∧ hazardRole (.lwxc1 x q r) = .memory false ∧
      hazardRole (.ldxc1 x q r) = .memory false ∧ hazardRole (.swxc1 x q r) = .memory false ∧
      hazardRole (.sdxc1 x q r) = .memory false ∧ hazardRole (.pfetch x q h) = .memory false) ∧
    (∀ (a : HazardKind) (b : HazardRole), ssnopsRequired .table a b ≠ 0 →
      ((a = .dmfc0 ∨ ∃ q, a = .dmtc0 q) ∧ (b = .link ∨ ∃ r, b = .dmfc0 r ∨ b = .dmtc0 r)) ∨
      (a = .link ∧ ∃ r, b = .dmfc0 r ∨ b = .dmtc0 r) ∨
      (a = .dmtc0 8 ∧ b ∈ [.tlbr, .tlbw, .tlbp, .dctr, .dctw, .memory true]) ∨
      ((∃ q ∈ [12, 0, 10, 2], a = .dmtc0 q) ∧ b ∈ [.tlbr, .tlbw, .tlbp]) ∨
      (a = .dmtc0 28 ∧ b = .dctw) ∨ ((a = .dmtc0 14 ∨ a = .dmtc0 12) ∧ b = .eret) ∨
      (a ∈ [.tlbr, .tlbw, .tlbp, .pageSizeChange, .asidChange] ∧ ∃ store, b = .memory store) ∨
      (a ∈ [.tlbr, .tlbw, .tlbp, .dctr, .dctw, .intStore] ∧ b = .dmtc0 8) ∨
      (a = .tlbr ∧ b ∈ [.dmfc0 10, .dmfc0 2, .dmtc0 10, .dmtc0 2]) ∨ (a = .tlbp ∧ b ∈ [.dmfc0 0, .dmtc0 0]) ∨
      (a = .dctr ∧ b ∈ [.dmfc0 28, .dmtc0 28])) ∧
    (∀ i : Instr, hazardRole i ≠ .plain → ∃ (x q r : Reg) (o : BitVec 16) (j : BitVec 26) (h : BitVec 5),
      i = .dmfc0 x r ∨ i = .dmtc0 x r ∨ i = .tlbr ∨ i = .tlbw ∨ i = .tlbp ∨ i = .dctr ∨ i = .dctw ∨ i = .eret ∨
      i = .jal j ∨ i = .jalr x r ∨ i = .bltzal x o ∨ i = .bgezal x o ∨ i = .bltzall x o ∨ i = .bgezall x o ∨
      i = .sb x r o ∨ i = .sh x r o ∨ i = .sw x r o ∨ i = .sd x r o ∨ i = .swl x r o ∨ i = .swr x r o ∨
      i = .sdl x r o ∨ i = .sdr x r o ∨ i = .sc x r o ∨ i = .scd x r o ∨ i = .lb x r o ∨ i = .lbu x r o ∨
      i = .lh x r o ∨ i = .lhu x r o ∨ i = .lw x r o ∨ i = .lwu x r o ∨ i = .ld x r o ∨ i = .lwl x r o ∨
      i = .lwr x r o ∨ i = .ldl x r o ∨ i = .ldr x r o ∨ i = .ll x r o ∨ i = .lld x r o ∨ i = .lwc1 x r o ∨
      i = .ldc1 x r o ∨ i = .swc1 x r o ∨ i = .sdc1 x r o ∨ i = .pref x h o ∨ i = .lwxc1 x q r ∨ i = .ldxc1 x q r ∨
      i = .swxc1 x q r ∨ i = .sdxc1 x q r ∨ i = .pfetch x q h) ∧
    (∀ (s : State) (i : Instr) (k : HazardKind), k ∈ s.hazardKinds i →
      (k = .dmfc0 ∧ ∃ x r, i = .dmfc0 x r) ∨
      (∃ x r, i = .dmtc0 x r ∧ (k = .dmtc0 r ∨ k ∈ [.asidChange, .pageSizeChange, .dmChange])) ∨
      (k = .tlbr ∧ i = .tlbr) ∨ (k = .tlbw ∧ i = .tlbw) ∨ (k = .tlbp ∧ i = .tlbp) ∨ (k = .dctr ∧ i = .dctr) ∨
      (k = .dctw ∧ i = .dctw) ∨ (k = .link ∧ hazardRole i = .link) ∨ (k = .intStore ∧ hazardRole i = .memory true)) ∧
    (∀ (s : State) (i : Instr) (e : HazardEntry), e ∈ (s.recordHazards i).hazards ↔
      (e.kind ∈ s.hazardKinds i ∧ e.ssnops = 0 ∧ e.insns = 0) ∨
      ∃ o ∈ s.hazards, e = ⟨o.kind, o.ssnops + (if i = .ssnop then 1 else 0), o.insns + 1⟩ ∧ e.kind ∉ s.hazardKinds i ∧
        (e.ssnops < 4 ∨ e.kind = .dmChange)) ∧
    (∀ (s : State) (rt rd : Reg), .dmtc0 rd ∈ s.hazardKinds (.dmtc0 rt rd) ∧ .dmfc0 ∈ s.hazardKinds (.dmfc0 rt rd) ∧
      .tlbr ∈ s.hazardKinds .tlbr ∧ .tlbw ∈ s.hazardKinds .tlbw ∧ .tlbp ∈ s.hazardKinds .tlbp ∧ .dctr ∈ s.hazardKinds .dctr ∧
      .dctw ∈ s.hazardKinds .dctw ∧ (∀ i, hazardRole i = .link → .link ∈ s.hazardKinds i) ∧
      (∀ i, hazardRole i = .memory true → .intStore ∈ s.hazardKinds i) ∧
      (.asidChange ∈ s.hazardKinds (.dmtc0 rt rd) ↔ rd = 10 ∧ (TlbHi.ofWord (s.reg rt)).asid ≠ s.cp0.entryHi.asid) ∧
      (.pageSizeChange ∈ s.hazardKinds (.dmtc0 rt rd) ↔ rd = 12 ∧
        ((StatusReg.ofWord (s.reg rt)).ups ≠ s.cp0.status.ups ∨ (StatusReg.ofWord (s.reg rt)).kps ≠ s.cp0.status.kps)) ∧
      (.dmChange ∈ s.hazardKinds (.dmtc0 rt rd) ↔ rd = 12 ∧ (StatusReg.ofWord (s.reg rt)).dm ≠ s.cp0.status.dm))

/-- The 26 floating-point arithmetic instructions: delivered result, exceptions in the FSR, or a precise trap. (45_fp_arith.md R402 to R405, R400, R401, R417, 10_state.md R26, 93_implementation_defined.md U31, 45_fp_arith.md R406 to R410, R417, 60_exceptions.md R612, 45_fp_arith.md R411 to R414, R417.)

Each word decodes to its instruction. Where coprocessor 1 is usable and the registers are legal: with r the result of the IEEE operation of the model on the two operands, either r traps in precise mode and the floating-point interrupt is taken with no result written, or the instruction completes with r in fd in its format, Flags and E or-ed, Cause written in performance mode, and every other register, flag and byte of memory unchanged. That an odd register with FR = 0 is refused is the model's choice (R26 leaves it undefined; U31, log 21). An unusable coprocessor raises. Each word decodes to its instruction. Where coprocessor 1 is usable (and for RECIP and RSQRT the SGI-extended instructions are enabled) and the registers are legal, the instruction ends as R417 says with the result of its operation on fs in fd and nothing else changed but the FSR. Each word decodes to its instruction. Where coprocessor 1 is usable, SGI-extended instructions are enabled and the registers are legal, the instruction ends as R417 says with the fused result of fs, ft and fr in fd and nothing else changed but the FSR. -/
def Obligations.FloatArithmetic : Prop :=
  (∀ (s : State) (ft fs fd : Reg),
    Decodes (rType 17 16 ft fs fd 0) (.addS ft fs fd) ∧
    NeedsCp1 (.addS ft fs fd) s (OperatesOn2 (.addS ft fs fd) s fd fs ft .single (floatAdd .single)) ∧
    Decodes (rType 17 17 ft fs fd 0) (.addD ft fs fd) ∧
    NeedsCp1 (.addD ft fs fd) s (OperatesOn2 (.addD ft fs fd) s fd fs ft .double (floatAdd .double)) ∧
    Decodes (rType 17 16 ft fs fd 1) (.subS ft fs fd) ∧
    NeedsCp1 (.subS ft fs fd) s (OperatesOn2 (.subS ft fs fd) s fd fs ft .single (floatSub .single)) ∧
    Decodes (rType 17 17 ft fs fd 1) (.subD ft fs fd) ∧
    NeedsCp1 (.subD ft fs fd) s (OperatesOn2 (.subD ft fs fd) s fd fs ft .double (floatSub .double)) ∧
    Decodes (rType 17 16 ft fs fd 2) (.mulS ft fs fd) ∧
    NeedsCp1 (.mulS ft fs fd) s (OperatesOn2 (.mulS ft fs fd) s fd fs ft .single (floatMul .single)) ∧
    Decodes (rType 17 17 ft fs fd 2) (.mulD ft fs fd) ∧
    NeedsCp1 (.mulD ft fs fd) s (OperatesOn2 (.mulD ft fs fd) s fd fs ft .double (floatMul .double)) ∧
    Decodes (rType 17 16 ft fs fd 3) (.divS ft fs fd) ∧
    NeedsCp1 (.divS ft fs fd) s (OperatesOn2 (.divS ft fs fd) s fd fs ft .single (floatDiv .single)) ∧
    Decodes (rType 17 17 ft fs fd 3) (.divD ft fs fd) ∧
    NeedsCp1 (.divD ft fs fd) s (OperatesOn2 (.divD ft fs fd) s fd fs ft .double (floatDiv .double))) ∧
  (∀ (s : State) (fs fd : Reg),
    Decodes (rType 17 16 0 fs fd 4) (.sqrtS fs fd) ∧
    NeedsCp1 (.sqrtS fs fd) s (OperatesOn1 (.sqrtS fs fd) s fd fs .single .single (floatSqrt .single)) ∧
    Decodes (rType 17 17 0 fs fd 4) (.sqrtD fs fd) ∧
    NeedsCp1 (.sqrtD fs fd) s (OperatesOn1 (.sqrtD fs fd) s fd fs .double .double (floatSqrt .double)) ∧
    Decodes (rType 17 16 0 fs fd 5) (.absS fs fd) ∧
    NeedsCp1 (.absS fs fd) s (OperatesOn1 (.absS fs fd) s fd fs .single .single (floatAbs .single)) ∧
    Decodes (rType 17 17 0 fs fd 5) (.absD fs fd) ∧
    NeedsCp1 (.absD fs fd) s (OperatesOn1 (.absD fs fd) s fd fs .double .double (floatAbs .double)) ∧
    Decodes (rType 17 16 0 fs fd 7) (.negS fs fd) ∧
    NeedsCp1 (.negS fs fd) s (OperatesOn1 (.negS fs fd) s fd fs .single .single (floatNeg .single)) ∧
    Decodes (rType 17 17 0 fs fd 7) (.negD fs fd) ∧
    NeedsCp1 (.negD fs fd) s (OperatesOn1 (.negD fs fd) s fd fs .double .double (floatNeg .double)) ∧
    Decodes (rType 17 16 0 fs fd 21) (.recipS fs fd) ∧
    NeedsCp1 (.recipS fs fd) s (NeedsXx (.recipS fs fd) s (OperatesOn1 (.recipS fs fd) s fd fs .single .single (floatRecip .single))) ∧
    Decodes (rType 17 17 0 fs fd 21) (.recipD fs fd) ∧
    NeedsCp1 (.recipD fs fd) s (NeedsXx (.recipD fs fd) s (OperatesOn1 (.recipD fs fd) s fd fs .double .double (floatRecip .double))) ∧
    Decodes (rType 17 16 0 fs fd 22) (.rsqrtS fs fd) ∧
    NeedsCp1 (.rsqrtS fs fd) s (NeedsXx (.rsqrtS fs fd) s (OperatesOn1 (.rsqrtS fs fd) s fd fs .single .single (floatRsqrt .single))) ∧
    Decodes (rType 17 17 0 fs fd 22) (.rsqrtD fs fd) ∧
    NeedsCp1 (.rsqrtD fs fd) s (NeedsXx (.rsqrtD fs fd) s (OperatesOn1 (.rsqrtD fs fd) s fd fs .double .double (floatRsqrt .double)))) ∧
  (∀ (s : State) (fr ft fs fd : Reg),
    Decodes (rType 19 fr ft fs fd 32) (.maddS fr ft fs fd) ∧
    NeedsCp1 (.maddS fr ft fs fd) s (NeedsXx (.maddS fr ft fs fd) s (OperatesOn3 (.maddS fr ft fs fd) s fd fr fs ft .single (floatMadd .single))) ∧
    Decodes (rType 19 fr ft fs fd 33) (.maddD fr ft fs fd) ∧
    NeedsCp1 (.maddD fr ft fs fd) s (NeedsXx (.maddD fr ft fs fd) s (OperatesOn3 (.maddD fr ft fs fd) s fd fr fs ft .double (floatMadd .double))) ∧
    Decodes (rType 19 fr ft fs fd 40) (.msubS fr ft fs fd) ∧
    NeedsCp1 (.msubS fr ft fs fd) s (NeedsXx (.msubS fr ft fs fd) s (OperatesOn3 (.msubS fr ft fs fd) s fd fr fs ft .single (floatMsub .single))) ∧
    Decodes (rType 19 fr ft fs fd 41) (.msubD fr ft fs fd) ∧
    NeedsCp1 (.msubD fr ft fs fd) s (NeedsXx (.msubD fr ft fs fd) s (OperatesOn3 (.msubD fr ft fs fd) s fd fr fs ft .double (floatMsub .double))) ∧
    Decodes (rType 19 fr ft fs fd 48) (.nmaddS fr ft fs fd) ∧
    NeedsCp1 (.nmaddS fr ft fs fd) s (NeedsXx (.nmaddS fr ft fs fd) s (OperatesOn3 (.nmaddS fr ft fs fd) s fd fr fs ft .single (floatNmadd .single))) ∧
    Decodes (rType 19 fr ft fs fd 49) (.nmaddD fr ft fs fd) ∧
    NeedsCp1 (.nmaddD fr ft fs fd) s (NeedsXx (.nmaddD fr ft fs fd) s (OperatesOn3 (.nmaddD fr ft fs fd) s fd fr fs ft .double (floatNmadd .double))) ∧
    Decodes (rType 19 fr ft fs fd 56) (.nmsubS fr ft fs fd) ∧
    NeedsCp1 (.nmsubS fr ft fs fd) s (NeedsXx (.nmsubS fr ft fs fd) s (OperatesOn3 (.nmsubS fr ft fs fd) s fd fr fs ft .single (floatNmsub .single))) ∧
    Decodes (rType 19 fr ft fs fd 57) (.nmsubD fr ft fs fd) ∧
    NeedsCp1 (.nmsubD fr ft fs fd) s (NeedsXx (.nmsubD fr ft fs fd) s (OperatesOn3 (.nmsubD fr ft fs fd) s fd fr fs ft .double (floatNmsub .double))))

/-- The 26 floating-point conversions: delivered result, exceptions in the FSR, or a precise trap. (45_fp_arith.md R420 to R427, R430 to R432, R417, 60_exceptions.md R611, 10_state.md R26, 45_fp_arith.md R428, R429, 93_implementation_defined.md U26, U31.)

Each word decodes to its instruction. Where coprocessor 1 is usable (and MIPS III is enabled for the L results) and the registers are legal, the instruction ends as R417 says with the operand rounded to an integer, to nearest even, toward zero, up, down or by FSR.RM, in fd in its format, and nothing else changed but the FSR. The integer is the one that the mode rounds the operand to, with Inexact exactly when it differs from the operand; a NaN, an infinity and a rounded value that does not fit raise Invalid, and the integer then delivered is left free (log 25, DESIGN CHOICE). An odd register with FR = 0 is refused (R26, U31, log 21), and the operation ends by R417. Each word decodes to its instruction. Where coprocessor 1 is usable (and MIPS III is enabled for L operands) and the registers are legal, the instruction ends as R417 says with the operand converted and rounded by FSR.RM in fd, and nothing else changed but the FSR. -/
def Obligations.FloatConversions : Prop :=
  (∀ (s : State) (fs fd : Reg),
    Decodes (rType 17 16 0 fs fd 8) (.roundLS fs fd) ∧
    NeedsCp1 (.roundLS fs fd) s (NeedsUx (.roundLS fs fd) s (OperatesOn1 (.roundLS fs fd) s fd fs .single .fixedL fun m => floatToInteger .single m 0 64)) ∧
    Decodes (rType 17 17 0 fs fd 8) (.roundLD fs fd) ∧
    NeedsCp1 (.roundLD fs fd) s (NeedsUx (.roundLD fs fd) s (OperatesOn1 (.roundLD fs fd) s fd fs .double .fixedL fun m => floatToInteger .double m 0 64)) ∧
    Decodes (rType 17 16 0 fs fd 9) (.truncLS fs fd) ∧
    NeedsCp1 (.truncLS fs fd) s (NeedsUx (.truncLS fs fd) s (OperatesOn1 (.truncLS fs fd) s fd fs .single .fixedL fun m => floatToInteger .single m 1 64)) ∧
    Decodes (rType 17 17 0 fs fd 9) (.truncLD fs fd) ∧
    NeedsCp1 (.truncLD fs fd) s (NeedsUx (.truncLD fs fd) s (OperatesOn1 (.truncLD fs fd) s fd fs .double .fixedL fun m => floatToInteger .double m 1 64)) ∧
    Decodes (rType 17 16 0 fs fd 10) (.ceilLS fs fd) ∧
    NeedsCp1 (.ceilLS fs fd) s (NeedsUx (.ceilLS fs fd) s (OperatesOn1 (.ceilLS fs fd) s fd fs .single .fixedL fun m => floatToInteger .single m 2 64)) ∧
    Decodes (rType 17 17 0 fs fd 10) (.ceilLD fs fd) ∧
    NeedsCp1 (.ceilLD fs fd) s (NeedsUx (.ceilLD fs fd) s (OperatesOn1 (.ceilLD fs fd) s fd fs .double .fixedL fun m => floatToInteger .double m 2 64)) ∧
    Decodes (rType 17 16 0 fs fd 11) (.floorLS fs fd) ∧
    NeedsCp1 (.floorLS fs fd) s (NeedsUx (.floorLS fs fd) s (OperatesOn1 (.floorLS fs fd) s fd fs .single .fixedL fun m => floatToInteger .single m 3 64)) ∧
    Decodes (rType 17 17 0 fs fd 11) (.floorLD fs fd) ∧
    NeedsCp1 (.floorLD fs fd) s (NeedsUx (.floorLD fs fd) s (OperatesOn1 (.floorLD fs fd) s fd fs .double .fixedL fun m => floatToInteger .double m 3 64)) ∧
    Decodes (rType 17 16 0 fs fd 12) (.roundWS fs fd) ∧
    NeedsCp1 (.roundWS fs fd) s (OperatesOn1 (.roundWS fs fd) s fd fs .single .fixedW fun m => floatToInteger .single m 0 32) ∧
    Decodes (rType 17 17 0 fs fd 12) (.roundWD fs fd) ∧
    NeedsCp1 (.roundWD fs fd) s (OperatesOn1 (.roundWD fs fd) s fd fs .double .fixedW fun m => floatToInteger .double m 0 32) ∧
    Decodes (rType 17 16 0 fs fd 13) (.truncWS fs fd) ∧
    NeedsCp1 (.truncWS fs fd) s (OperatesOn1 (.truncWS fs fd) s fd fs .single .fixedW fun m => floatToInteger .single m 1 32) ∧
    Decodes (rType 17 17 0 fs fd 13) (.truncWD fs fd) ∧
    NeedsCp1 (.truncWD fs fd) s (OperatesOn1 (.truncWD fs fd) s fd fs .double .fixedW fun m => floatToInteger .double m 1 32) ∧
    Decodes (rType 17 16 0 fs fd 14) (.ceilWS fs fd) ∧
    NeedsCp1 (.ceilWS fs fd) s (OperatesOn1 (.ceilWS fs fd) s fd fs .single .fixedW fun m => floatToInteger .single m 2 32) ∧
    Decodes (rType 17 17 0 fs fd 14) (.ceilWD fs fd) ∧
    NeedsCp1 (.ceilWD fs fd) s (OperatesOn1 (.ceilWD fs fd) s fd fs .double .fixedW fun m => floatToInteger .double m 2 32) ∧
    Decodes (rType 17 16 0 fs fd 15) (.floorWS fs fd) ∧
    NeedsCp1 (.floorWS fs fd) s (OperatesOn1 (.floorWS fs fd) s fd fs .single .fixedW fun m => floatToInteger .single m 3 32) ∧
    Decodes (rType 17 17 0 fs fd 15) (.floorWD fs fd) ∧
    NeedsCp1 (.floorWD fs fd) s (OperatesOn1 (.floorWD fs fd) s fd fs .double .fixedW fun m => floatToInteger .double m 3 32) ∧
    Decodes (rType 17 16 0 fs fd 36) (.cvtWS fs fd) ∧
    NeedsCp1 (.cvtWS fs fd) s (OperatesOn1 (.cvtWS fs fd) s fd fs .single .fixedW fun m => floatToInteger .single m m.rm 32) ∧
    Decodes (rType 17 17 0 fs fd 36) (.cvtWD fs fd) ∧
    NeedsCp1 (.cvtWD fs fd) s (OperatesOn1 (.cvtWD fs fd) s fd fs .double .fixedW fun m => floatToInteger .double m m.rm 32) ∧
    Decodes (rType 17 16 0 fs fd 37) (.cvtLS fs fd) ∧
    NeedsCp1 (.cvtLS fs fd) s (NeedsUx (.cvtLS fs fd) s (OperatesOn1 (.cvtLS fs fd) s fd fs .single .fixedL fun m => floatToInteger .single m m.rm 64)) ∧
    Decodes (rType 17 17 0 fs fd 37) (.cvtLD fs fd) ∧
    NeedsCp1 (.cvtLD fs fd) s (NeedsUx (.cvtLD fs fd) s (OperatesOn1 (.cvtLD fs fd) s fd fs .double .fixedL fun m => floatToInteger .double m m.rm 64)) ∧
    (∀ (f : FloatFormat) (mode : FloatMode) (rm : BitVec 2) (bits : Nat) (a : Word), (f = .single ∨ f = .double) →
      (bits = 32 ∨ bits = 64) →
      Arithmetic f mode [a] (floatToInteger f mode rm bits a) (fun _ d => d.raised = flagV ∧ d.e = false)
        (Integers rm bits (f.operand mode a)))) ∧
  (∀ (s : State) (fs fd : Reg),
    Decodes (rType 17 17 0 fs fd 32) (.cvtSD fs fd) ∧
    NeedsCp1 (.cvtSD fs fd) s (OperatesOn1 (.cvtSD fs fd) s fd fs .double .single (floatConvert .double .single)) ∧
    Decodes (rType 17 16 0 fs fd 33) (.cvtDS fs fd) ∧
    NeedsCp1 (.cvtDS fs fd) s (OperatesOn1 (.cvtDS fs fd) s fd fs .single .double (floatConvert .single .double)) ∧
    Decodes (rType 17 20 0 fs fd 32) (.cvtSW fs fd) ∧
    NeedsCp1 (.cvtSW fs fd) s (OperatesOn1 (.cvtSW fs fd) s fd fs .fixedW .single (fun m v => integerToFloat .single m (v.setWidth 32).toInt)) ∧
    Decodes (rType 17 20 0 fs fd 33) (.cvtDW fs fd) ∧
    NeedsCp1 (.cvtDW fs fd) s (OperatesOn1 (.cvtDW fs fd) s fd fs .fixedW .double (fun m v => integerToFloat .double m (v.setWidth 32).toInt)) ∧
    Decodes (rType 17 21 0 fs fd 32) (.cvtSL fs fd) ∧
    NeedsCp1 (.cvtSL fs fd) s (NeedsUx (.cvtSL fs fd) s (OperatesOn1 (.cvtSL fs fd) s fd fs .fixedL .single (fun m v => integerToFloat .single m v.toInt))) ∧
    Decodes (rType 17 21 0 fs fd 33) (.cvtDL fs fd) ∧
    NeedsCp1 (.cvtDL fs fd) s (NeedsUx (.cvtDL fs fd) s (OperatesOn1 (.cvtDL fs fd) s fd fs .fixedL .double (fun m v => integerToFloat .double m v.toInt))))

/-- The 32 compares: the truth value in the named condition code, exceptions, completion and frame. (45_fp_arith.md R440, R417, 60_exceptions.md R612, 10_state.md R26, 93_implementation_defined.md U28, U31.)

Each word decodes to its instruction. Where coprocessor 1 is usable, and for a condition code other than 0 the SGI-extended instructions are enabled, and the registers are legal: the compare traps precisely with no condition code written, or completes with the truth value of its predicate in the named condition code, the other codes kept, the exceptions recorded in the FSR and nothing else changed. The refusal of an odd register with FR = 0 is R26 with U31 (log 21), the precise trap is R417, and whether a compare flushes a denormalized operand or raises E for it is left free; that a flush sets no flag, and that V is recorded beside E, is the model's choice (log 27). -/
def Obligations.FloatCompares : Prop :=
  ∀ (s : State) (ft fs : Reg) (cc : CC),
    Decodes (rType 17 16 ft fs (cc ++ 0#2) 48) (.cFS ft fs cc) ∧
    NeedsCp1 (.cFS ft fs cc) s ((cc = 0 ∨ XxOn s → Compares (.cFS ft fs cc) s .single .single 0 ft fs cc) ∧
      (cc ≠ 0 → ¬XxOn s → Raises (.cFS ft fs cc) s .reservedInstruction)) ∧
    Decodes (rType 17 16 ft fs (cc ++ 0#2) 49) (.cUnS ft fs cc) ∧
    NeedsCp1 (.cUnS ft fs cc) s ((cc = 0 ∨ XxOn s → Compares (.cUnS ft fs cc) s .single .single 1 ft fs cc) ∧
      (cc ≠ 0 → ¬XxOn s → Raises (.cUnS ft fs cc) s .reservedInstruction)) ∧
    Decodes (rType 17 16 ft fs (cc ++ 0#2) 50) (.cEqS ft fs cc) ∧
    NeedsCp1 (.cEqS ft fs cc) s ((cc = 0 ∨ XxOn s → Compares (.cEqS ft fs cc) s .single .single 2 ft fs cc) ∧
      (cc ≠ 0 → ¬XxOn s → Raises (.cEqS ft fs cc) s .reservedInstruction)) ∧
    Decodes (rType 17 16 ft fs (cc ++ 0#2) 51) (.cUeqS ft fs cc) ∧
    NeedsCp1 (.cUeqS ft fs cc) s ((cc = 0 ∨ XxOn s → Compares (.cUeqS ft fs cc) s .single .single 3 ft fs cc) ∧
      (cc ≠ 0 → ¬XxOn s → Raises (.cUeqS ft fs cc) s .reservedInstruction)) ∧
    Decodes (rType 17 16 ft fs (cc ++ 0#2) 52) (.cOltS ft fs cc) ∧
    NeedsCp1 (.cOltS ft fs cc) s ((cc = 0 ∨ XxOn s → Compares (.cOltS ft fs cc) s .single .single 4 ft fs cc) ∧
      (cc ≠ 0 → ¬XxOn s → Raises (.cOltS ft fs cc) s .reservedInstruction)) ∧
    Decodes (rType 17 16 ft fs (cc ++ 0#2) 53) (.cUltS ft fs cc) ∧
    NeedsCp1 (.cUltS ft fs cc) s ((cc = 0 ∨ XxOn s → Compares (.cUltS ft fs cc) s .single .single 5 ft fs cc) ∧
      (cc ≠ 0 → ¬XxOn s → Raises (.cUltS ft fs cc) s .reservedInstruction)) ∧
    Decodes (rType 17 16 ft fs (cc ++ 0#2) 54) (.cOleS ft fs cc) ∧
    NeedsCp1 (.cOleS ft fs cc) s ((cc = 0 ∨ XxOn s → Compares (.cOleS ft fs cc) s .single .single 6 ft fs cc) ∧
      (cc ≠ 0 → ¬XxOn s → Raises (.cOleS ft fs cc) s .reservedInstruction)) ∧
    Decodes (rType 17 16 ft fs (cc ++ 0#2) 55) (.cUleS ft fs cc) ∧
    NeedsCp1 (.cUleS ft fs cc) s ((cc = 0 ∨ XxOn s → Compares (.cUleS ft fs cc) s .single .single 7 ft fs cc) ∧
      (cc ≠ 0 → ¬XxOn s → Raises (.cUleS ft fs cc) s .reservedInstruction)) ∧
    Decodes (rType 17 16 ft fs (cc ++ 0#2) 56) (.cSfS ft fs cc) ∧
    NeedsCp1 (.cSfS ft fs cc) s ((cc = 0 ∨ XxOn s → Compares (.cSfS ft fs cc) s .single .single 8 ft fs cc) ∧
      (cc ≠ 0 → ¬XxOn s → Raises (.cSfS ft fs cc) s .reservedInstruction)) ∧
    Decodes (rType 17 16 ft fs (cc ++ 0#2) 57) (.cNgleS ft fs cc) ∧
    NeedsCp1 (.cNgleS ft fs cc) s ((cc = 0 ∨ XxOn s → Compares (.cNgleS ft fs cc) s .single .single 9 ft fs cc) ∧
      (cc ≠ 0 → ¬XxOn s → Raises (.cNgleS ft fs cc) s .reservedInstruction)) ∧
    Decodes (rType 17 16 ft fs (cc ++ 0#2) 58) (.cSeqS ft fs cc) ∧
    NeedsCp1 (.cSeqS ft fs cc) s ((cc = 0 ∨ XxOn s → Compares (.cSeqS ft fs cc) s .single .single 10 ft fs cc) ∧
      (cc ≠ 0 → ¬XxOn s → Raises (.cSeqS ft fs cc) s .reservedInstruction)) ∧
    Decodes (rType 17 16 ft fs (cc ++ 0#2) 59) (.cNglS ft fs cc) ∧
    NeedsCp1 (.cNglS ft fs cc) s ((cc = 0 ∨ XxOn s → Compares (.cNglS ft fs cc) s .single .single 11 ft fs cc) ∧
      (cc ≠ 0 → ¬XxOn s → Raises (.cNglS ft fs cc) s .reservedInstruction)) ∧
    Decodes (rType 17 16 ft fs (cc ++ 0#2) 60) (.cLtS ft fs cc) ∧
    NeedsCp1 (.cLtS ft fs cc) s ((cc = 0 ∨ XxOn s → Compares (.cLtS ft fs cc) s .single .single 12 ft fs cc) ∧
      (cc ≠ 0 → ¬XxOn s → Raises (.cLtS ft fs cc) s .reservedInstruction)) ∧
    Decodes (rType 17 16 ft fs (cc ++ 0#2) 61) (.cNgeS ft fs cc) ∧
    NeedsCp1 (.cNgeS ft fs cc) s ((cc = 0 ∨ XxOn s → Compares (.cNgeS ft fs cc) s .single .single 13 ft fs cc) ∧
      (cc ≠ 0 → ¬XxOn s → Raises (.cNgeS ft fs cc) s .reservedInstruction)) ∧
    Decodes (rType 17 16 ft fs (cc ++ 0#2) 62) (.cLeS ft fs cc) ∧
    NeedsCp1 (.cLeS ft fs cc) s ((cc = 0 ∨ XxOn s → Compares (.cLeS ft fs cc) s .single .single 14 ft fs cc) ∧
      (cc ≠ 0 → ¬XxOn s → Raises (.cLeS ft fs cc) s .reservedInstruction)) ∧
    Decodes (rType 17 16 ft fs (cc ++ 0#2) 63) (.cNgtS ft fs cc) ∧
    NeedsCp1 (.cNgtS ft fs cc) s ((cc = 0 ∨ XxOn s → Compares (.cNgtS ft fs cc) s .single .single 15 ft fs cc) ∧
      (cc ≠ 0 → ¬XxOn s → Raises (.cNgtS ft fs cc) s .reservedInstruction)) ∧
    Decodes (rType 17 17 ft fs (cc ++ 0#2) 48) (.cFD ft fs cc) ∧
    NeedsCp1 (.cFD ft fs cc) s ((cc = 0 ∨ XxOn s → Compares (.cFD ft fs cc) s .double .double 0 ft fs cc) ∧
      (cc ≠ 0 → ¬XxOn s → Raises (.cFD ft fs cc) s .reservedInstruction)) ∧
    Decodes (rType 17 17 ft fs (cc ++ 0#2) 49) (.cUnD ft fs cc) ∧
    NeedsCp1 (.cUnD ft fs cc) s ((cc = 0 ∨ XxOn s → Compares (.cUnD ft fs cc) s .double .double 1 ft fs cc) ∧
      (cc ≠ 0 → ¬XxOn s → Raises (.cUnD ft fs cc) s .reservedInstruction)) ∧
    Decodes (rType 17 17 ft fs (cc ++ 0#2) 50) (.cEqD ft fs cc) ∧
    NeedsCp1 (.cEqD ft fs cc) s ((cc = 0 ∨ XxOn s → Compares (.cEqD ft fs cc) s .double .double 2 ft fs cc) ∧
      (cc ≠ 0 → ¬XxOn s → Raises (.cEqD ft fs cc) s .reservedInstruction)) ∧
    Decodes (rType 17 17 ft fs (cc ++ 0#2) 51) (.cUeqD ft fs cc) ∧
    NeedsCp1 (.cUeqD ft fs cc) s ((cc = 0 ∨ XxOn s → Compares (.cUeqD ft fs cc) s .double .double 3 ft fs cc) ∧
      (cc ≠ 0 → ¬XxOn s → Raises (.cUeqD ft fs cc) s .reservedInstruction)) ∧
    Decodes (rType 17 17 ft fs (cc ++ 0#2) 52) (.cOltD ft fs cc) ∧
    NeedsCp1 (.cOltD ft fs cc) s ((cc = 0 ∨ XxOn s → Compares (.cOltD ft fs cc) s .double .double 4 ft fs cc) ∧
      (cc ≠ 0 → ¬XxOn s → Raises (.cOltD ft fs cc) s .reservedInstruction)) ∧
    Decodes (rType 17 17 ft fs (cc ++ 0#2) 53) (.cUltD ft fs cc) ∧
    NeedsCp1 (.cUltD ft fs cc) s ((cc = 0 ∨ XxOn s → Compares (.cUltD ft fs cc) s .double .double 5 ft fs cc) ∧
      (cc ≠ 0 → ¬XxOn s → Raises (.cUltD ft fs cc) s .reservedInstruction)) ∧
    Decodes (rType 17 17 ft fs (cc ++ 0#2) 54) (.cOleD ft fs cc) ∧
    NeedsCp1 (.cOleD ft fs cc) s ((cc = 0 ∨ XxOn s → Compares (.cOleD ft fs cc) s .double .double 6 ft fs cc) ∧
      (cc ≠ 0 → ¬XxOn s → Raises (.cOleD ft fs cc) s .reservedInstruction)) ∧
    Decodes (rType 17 17 ft fs (cc ++ 0#2) 55) (.cUleD ft fs cc) ∧
    NeedsCp1 (.cUleD ft fs cc) s ((cc = 0 ∨ XxOn s → Compares (.cUleD ft fs cc) s .double .double 7 ft fs cc) ∧
      (cc ≠ 0 → ¬XxOn s → Raises (.cUleD ft fs cc) s .reservedInstruction)) ∧
    Decodes (rType 17 17 ft fs (cc ++ 0#2) 56) (.cSfD ft fs cc) ∧
    NeedsCp1 (.cSfD ft fs cc) s ((cc = 0 ∨ XxOn s → Compares (.cSfD ft fs cc) s .double .double 8 ft fs cc) ∧
      (cc ≠ 0 → ¬XxOn s → Raises (.cSfD ft fs cc) s .reservedInstruction)) ∧
    Decodes (rType 17 17 ft fs (cc ++ 0#2) 57) (.cNgleD ft fs cc) ∧
    NeedsCp1 (.cNgleD ft fs cc) s ((cc = 0 ∨ XxOn s → Compares (.cNgleD ft fs cc) s .double .double 9 ft fs cc) ∧
      (cc ≠ 0 → ¬XxOn s → Raises (.cNgleD ft fs cc) s .reservedInstruction)) ∧
    Decodes (rType 17 17 ft fs (cc ++ 0#2) 58) (.cSeqD ft fs cc) ∧
    NeedsCp1 (.cSeqD ft fs cc) s ((cc = 0 ∨ XxOn s → Compares (.cSeqD ft fs cc) s .double .double 10 ft fs cc) ∧
      (cc ≠ 0 → ¬XxOn s → Raises (.cSeqD ft fs cc) s .reservedInstruction)) ∧
    Decodes (rType 17 17 ft fs (cc ++ 0#2) 59) (.cNglD ft fs cc) ∧
    NeedsCp1 (.cNglD ft fs cc) s ((cc = 0 ∨ XxOn s → Compares (.cNglD ft fs cc) s .double .double 11 ft fs cc) ∧
      (cc ≠ 0 → ¬XxOn s → Raises (.cNglD ft fs cc) s .reservedInstruction)) ∧
    Decodes (rType 17 17 ft fs (cc ++ 0#2) 60) (.cLtD ft fs cc) ∧
    NeedsCp1 (.cLtD ft fs cc) s ((cc = 0 ∨ XxOn s → Compares (.cLtD ft fs cc) s .double .double 12 ft fs cc) ∧
      (cc ≠ 0 → ¬XxOn s → Raises (.cLtD ft fs cc) s .reservedInstruction)) ∧
    Decodes (rType 17 17 ft fs (cc ++ 0#2) 61) (.cNgeD ft fs cc) ∧
    NeedsCp1 (.cNgeD ft fs cc) s ((cc = 0 ∨ XxOn s → Compares (.cNgeD ft fs cc) s .double .double 13 ft fs cc) ∧
      (cc ≠ 0 → ¬XxOn s → Raises (.cNgeD ft fs cc) s .reservedInstruction)) ∧
    Decodes (rType 17 17 ft fs (cc ++ 0#2) 62) (.cLeD ft fs cc) ∧
    NeedsCp1 (.cLeD ft fs cc) s ((cc = 0 ∨ XxOn s → Compares (.cLeD ft fs cc) s .double .double 14 ft fs cc) ∧
      (cc ≠ 0 → ¬XxOn s → Raises (.cLeD ft fs cc) s .reservedInstruction)) ∧
    Decodes (rType 17 17 ft fs (cc ++ 0#2) 63) (.cNgtD ft fs cc) ∧
    NeedsCp1 (.cNgtD ft fs cc) s ((cc = 0 ∨ XxOn s → Compares (.cNgtD ft fs cc) s .double .double 15 ft fs cc) ∧
      (cc ≠ 0 → ¬XxOn s → Raises (.cNgtD ft fs cc) s .reservedInstruction))

/-- The truth value of a compare: less, equal and unordered selected by the predicate bits, Invalid on NaNs. (45_fp_arith.md R440.)

For operands that are no denormals, in either format and any predicate: the compare holds exactly when bit 2 is set and the first value is less, or bit 1 is set and they are equal (+0 equals -0), or bit 0 is set and one is a NaN; Invalid is raised exactly when one is a NaN and bit 3 is set or one is signaling. Less and equal are those of the exact values: of two finite numbers as real numbers, so that zeros of either sign are equal; minus infinity below and plus infinity above every finite number, and equal only to itself. For two operands that are no NaN, exactly one of less, equal and greater holds. -/
def Obligations.CompareTruthValue : Prop :=
  ∀ (f : FloatFormat) (m : FloatMode) (cond : BitVec 4) (a b : Word), (f = .single ∨ f = .double) →
    f.denormal a = false → f.denormal b = false →
    let x := f.value a
    let y := f.value b
    ((floatCompare f m cond a b).holds = true ↔
      (cond.getLsbD 2 = true ∧ x.lt y = true) ∨ (cond.getLsbD 1 = true ∧ x.eq y = true) ∨
        (cond.getLsbD 0 = true ∧ (x.isNan = true ∨ y.isNan = true))) ∧
    ((floatCompare f m cond a b).raised = (if (x.isNan = true ∨ y.isNan = true) ∧
        (cond.getLsbD 3 = true ∨ x.isSignaling = true ∨ y.isSignaling = true) then flagV else 0)) ∧
    (floatCompare f m cond a b).e = false ∧
    (x.isNan = false → y.isNan = false →
      (x.lt y = true ∧ x.eq y = false ∧ y.lt x = false) ∨ (x.lt y = false ∧ x.eq y = true ∧ y.lt x = false) ∨
        (x.lt y = false ∧ x.eq y = false ∧ y.lt x = true)) ∧
    (∀ p u q v, x.Num p u → y.Num q v → (x.lt y = true ↔ u < v) ∧ (x.eq y = true ↔ u = v)) ∧
    (∀ p q, x.Num p 0 → y.Num q 0 → x.lt y = false ∧ x.eq y = true) ∧
    (∀ p q, x = .inf p → y = .inf q → (x.lt y = true ↔ p = true ∧ q = false) ∧ (x.eq y = true ↔ p = q)) ∧
    (∀ p q v, x = .inf p → y.Num q v → (x.lt y = true ↔ p = true) ∧ x.eq y = false) ∧
    (∀ p u q, x.Num p u → y = .inf q → (x.lt y = true ↔ q = false) ∧ x.eq y = false)

/-- The four rounding modes: nearest with ties to even, toward zero, toward +infinity, toward -infinity. (10_state.md R54, 45_fp_arith.md R415.)

For every magnitude m, shift k and sign, with no bits below m: the rounded quotient q of m by 2^k is, by RM: the nearest integer, the even one in a tie (0); the integer below (1); for RM 2 the one above when positive and not exact, else below; for RM 3 the one above when negative and not exact, else below. Inexact is reported exactly when 2^k does not divide m. -/
def Obligations.RoundingModes : Prop :=
  ∀ (neg : Bool) (m k : Nat),
    ((roundShift 0 neg m k false).1 * 2 ^ k ≤ m + 2 ^ k / 2 ∧ m ≤ (roundShift 0 neg m k false).1 * 2 ^ k + 2 ^ k / 2) ∧
    (0 < k → m % 2 ^ k = 2 ^ (k - 1) → (roundShift 0 neg m k false).1 % 2 = 0) ∧
    (roundShift 1 neg m k false).1 = m / 2 ^ k ∧
    (roundShift 2 neg m k false).1 = (if neg = false ∧ m % 2 ^ k ≠ 0 then m / 2 ^ k + 1 else m / 2 ^ k) ∧
    (roundShift 3 neg m k false).1 = (if neg = true ∧ m % 2 ^ k ≠ 0 then m / 2 ^ k + 1 else m / 2 ^ k) ∧
    ∀ rm : BitVec 2, ((roundShift rm neg m k false).2 = true ↔ m % 2 ^ k ≠ 0)

/-- An exact result that the format can hold is delivered as it is, with no exception, in every rounding mode. (45_fp_arith.md R415, 10_state.md R25.)

For single and double, every mode and sign, and every number m times 2^e with m non-zero and below 2^prec whose leading bit lies in the normal exponent range: rounding delivers a number with that sign and value, raises nothing and not E. -/
def Obligations.ExactResultsAreDelivered : Prop :=
  ∀ (f : FloatFormat) (mode : FloatMode) (neg : Bool) (m : Nat) (e : Int), (f = .single ∨ f = .double) →
    0 < m → m < 2 ^ f.prec → f.emin ≤ e + m.log2 → e + m.log2 ≤ f.emax →
    let r := f.round mode neg m e false
    r.raised = 0 ∧ r.e = false ∧
    ∃ k : Nat, f.value r.value = .fin neg (m * 2 ^ k) (e - k)

/-- The eight floating-point loads and stores: the register's bytes from memory, and to memory where RAM stands. (46_fp_mem_move.md R460, R461, R464, R470, R471, 20_memory.md R112, R124, R151, R153, R154, 10_state.md R26, 60_exceptions.md R596, R612, 93_implementation_defined.md U31, 46_fp_mem_move.md R462 to R464, R472, R473, 20_memory.md R108, R151, R154, R160, 10_state.md R56.)

Each word decodes to its instruction. Where coprocessor 1 is usable (and XX on for the indexed forms), a legal register, and an aligned address (base plus offset, or base plus index register) that translates: the low 32 bits or the 64 bits of the register get the bytes of memory, in the current byte order, where memory stands there (log 11), none was last stored in the other order (log 40) and DCTW has written the half line since reset (log 9), and else some value of their size; every other register keeps its value (with FR = 0 the registers pair as R26 says, log 21) and nothing else changes but the caches, LLbit with a repair there, and a pending coherence violation (log 43). The caches stay as they are, or the sector is taken over with the copies under its other synonym invalidated, as a lost one is (log 43); one not held is taken with this synonym (R154). An odd 64-bit register with FR = 0 is refused (U31, log 21). A failed address raises its exception. Each word decodes to its instruction. Where enabled, with a legal register and an aligned address that translates for a store: those of the 4 or 8 bytes from the physical address on where RAM stands (R108; a store elsewhere leaves memory as it was, the model's choice, log 11) are the register's 32 or 64 bits in the current byte order, every other byte of memory reads as before, and nothing else changes but the caches, LLbit with a repair there, the record of byte orders (log 40) and a pending coherence violation (log 43). In the data cache the words stored lose their valid bits where the line of VA[13:5] holds them (R56, R151), and with SMM = 1 in the copy under the synonym that the streaming cache holds (R154, R160); no other line changes but the copies under that synonym, which may lose valid bits (log 43); that every line keeps E is the model's choice (log 42). A failed address raises its exception. -/
def Obligations.FloatLoadsAndStores : Prop :=
  (∀ (s : State) (base index r : Reg) (off : BitVec 16),
    Decodes (iType 49 base r off) (.lwc1 base r off) ∧
    Decodes (iType 53 base r off) (.ldc1 base r off) ∧
    Decodes (rType 19 base index 0 r 0) (.lwxc1 base index r) ∧
    Decodes (rType 19 base index 0 r 1) (.ldxc1 base index r) ∧
    NeedsCp1 (.lwc1 base r off) s (∀ va t, s.dataAddress .load 4 base (sext16 off) = .ok (va, t) →
        WritesFprWord (.lwc1 base r off) s r ((s.loadFloat va t 4).1.setWidth 32) [.llbit, .dcache, .scache, .vciPending] ∧
        Leaves (.lwc1 base r off) s (FloatLoadedCaches s va t)) ∧
    NeedsCp1 (.ldc1 base r off) s (NeedsPairs (.ldc1 base r off) s [r] (
        ∀ va t, s.dataAddress .load 8 base (sext16 off) = .ok (va, t) →
        WritesFpr (.ldc1 base r off) s r (s.loadFloat va t 8).1 [.llbit, .dcache, .scache, .vciPending] ∧
        Leaves (.ldc1 base r off) s (FloatLoadedCaches s va t))) ∧
    NeedsCp1 (.lwxc1 base index r) s (NeedsXx (.lwxc1 base index r) s (∀ va t, s.dataAddress .load 4 base (s.reg index) = .ok (va, t) →
        WritesFprWord (.lwxc1 base index r) s r ((s.loadFloat va t 4).1.setWidth 32) [.llbit, .dcache, .scache, .vciPending] ∧
        Leaves (.lwxc1 base index r) s (FloatLoadedCaches s va t))) ∧
    NeedsCp1 (.ldxc1 base index r) s (NeedsXx (.ldxc1 base index r) s (NeedsPairs (.ldxc1 base index r) s [r] (
        ∀ va t, s.dataAddress .load 8 base (s.reg index) = .ok (va, t) →
        WritesFpr (.ldxc1 base index r) s r (s.loadFloat va t 8).1 [.llbit, .dcache, .scache, .vciPending] ∧
        Leaves (.ldxc1 base index r) s (FloatLoadedCaches s va t)))) ∧
    (s.usable1 = true → ∀ e,
      (s.dataAddress .load 4 base (sext16 off) = .raise e → Raises (.lwc1 base r off) s e) ∧
      (s.dataAddress .load 8 base (sext16 off) = .raise e → NeedsPairs (.ldc1 base r off) s [r] (Raises (.ldc1 base r off) s e)) ∧
      (s.dataAddress .load 4 base (s.reg index) = .raise e →
        NeedsXx (.lwxc1 base index r) s (Raises (.lwxc1 base index r) s e)) ∧
      (s.dataAddress .load 8 base (s.reg index) = .raise e →
        NeedsXx (.ldxc1 base index r) s (NeedsPairs (.ldxc1 base index r) s [r] (Raises (.ldxc1 base index r) s e)))) ∧
    (∀ va t n, 0 < n → n ≤ 8 → CMap.get dcacheUnwritten s.dcacheWritten (va.extractLsb' 4 10).toNat = true →
      ByteOrder.mixed s.byteOrder s.bigEndian t.pa.toNat n = false → (∀ k, k < n → s.backedAt (t.pa.toNat + k) = true) →
      ∀ k, k < n → (s.loadFloat va t n).1.toNat / 256 ^ k % 256 =
        (Memory.read s.mem (t.pa.toNat + (if s.bigEndian then n - 1 - k else k))).toNat) ∧
    (∀ va t n, n ≤ 8 → (s.loadFloat va t n).1.toNat < 256 ^ n)) ∧
  (∀ (s : State) (base index r : Reg) (off : BitVec 16),
    Decodes (iType 57 base r off) (.swc1 base r off) ∧
    Decodes (iType 61 base r off) (.sdc1 base r off) ∧
    Decodes (rType 19 base index r 0 8) (.swxc1 base index r) ∧
    Decodes (rType 19 base index r 0 9) (.sdxc1 base index r) ∧
    NeedsCp1 (.swc1 base r off) s (∀ va t, s.dataAddress .store 4 base (sext16 off) = .ok (va, t) →
        StoresBytes (.swc1 base r off) s t.pa.toNat (storedBytes s.bigEndian 4 ((s.fprWord r).setWidth 64)) [.vciPending] ∧
        Leaves (.swc1 base r off) s (FloatStoredCaches s va t 4)) ∧
    NeedsCp1 (.sdc1 base r off) s (NeedsPairs (.sdc1 base r off) s [r] (
        ∀ va t, s.dataAddress .store 8 base (sext16 off) = .ok (va, t) →
        StoresBytes (.sdc1 base r off) s t.pa.toNat (storedBytes s.bigEndian 8 (s.fprFile r)) [.vciPending] ∧
        Leaves (.sdc1 base r off) s (FloatStoredCaches s va t 8))) ∧
    NeedsCp1 (.swxc1 base index r) s (NeedsXx (.swxc1 base index r) s (∀ va t, s.dataAddress .store 4 base (s.reg index) = .ok (va, t) →
        StoresBytes (.swxc1 base index r) s t.pa.toNat (storedBytes s.bigEndian 4 ((s.fprWord r).setWidth 64)) [.vciPending] ∧
        Leaves (.swxc1 base index r) s (FloatStoredCaches s va t 4))) ∧
    NeedsCp1 (.sdxc1 base index r) s (NeedsXx (.sdxc1 base index r) s (NeedsPairs (.sdxc1 base index r) s [r] (
        ∀ va t, s.dataAddress .store 8 base (s.reg index) = .ok (va, t) →
        StoresBytes (.sdxc1 base index r) s t.pa.toNat (storedBytes s.bigEndian 8 (s.fprFile r)) [.vciPending] ∧
        Leaves (.sdxc1 base index r) s (FloatStoredCaches s va t 8)))) ∧
    (s.usable1 = true → ∀ e,
      (s.dataAddress .store 4 base (sext16 off) = .raise e → Raises (.swc1 base r off) s e) ∧
      (s.dataAddress .store 8 base (sext16 off) = .raise e → NeedsPairs (.sdc1 base r off) s [r] (Raises (.sdc1 base r off) s e)) ∧
      (s.dataAddress .store 4 base (s.reg index) = .raise e →
        NeedsXx (.swxc1 base index r) s (Raises (.swxc1 base index r) s e)) ∧
      (s.dataAddress .store 8 base (s.reg index) = .raise e →
        NeedsXx (.sdxc1 base index r) s (NeedsPairs (.sdxc1 base index r) s [r] (Raises (.sdxc1 base index r) s e)))))

/-- MFC1, DMFC1, MTC1, DMTC1, CFC1 and CTC1 move between general, floating-point and control registers. (46_fp_mem_move.md R479 to R484, 60_exceptions.md R611, 10_state.md R26, 93_implementation_defined.md U31, 46_fp_mem_move.md R485, 10_state.md R54, 70_reset_and_hazards.md R670, 92_eei_decisions.md D31.)

Each word decodes to its instruction. Where coprocessor 1 is usable (and MIPS III is on for the doubleword forms, with a legal register): MFC1 gives rt the sign-extended 32 bits and DMFC1 the 64 bits of fs, MTC1 and DMTC1 write them from rt, CFC1 gives rt the sign-extended FSR or FConfig (some value for a reserved number). Nothing else changes; reading the FSR also lets the CPU see the floating-point interrupt condition (the model's choice, log 29). An odd register with FR = 0 is refused for the 64-bit moves and legal for the 32-bit ones (R26 with U31, log 21). The word decodes to CTC1. Where coprocessor 1 is usable: with fs = 31 the FSR takes the written fields, each written Cause bit also sets its flag, and nothing else changes; in precise mode with an enabled Cause bit or E written the floating-point interrupt is taken instead; that the FSR is then written and that E counts as enabled are the model's choices (D31, log 26). With any other fs nothing changes. That after it only condition codes that changed may be read as undefined by the next instruction is the model's choice (log 28). -/
def Obligations.FloatControlAndRegisterMoves : Prop :=
  (∀ (s : State) (rt fs : Reg),
    Decodes (rType 17 0 rt fs 0 0) (.mfc1 rt fs) ∧
    Decodes (rType 17 1 rt fs 0 0) (.dmfc1 rt fs) ∧
    Decodes (rType 17 2 rt fs 0 0) (.cfc1 rt fs) ∧
    Decodes (rType 17 4 rt fs 0 0) (.mtc1 rt fs) ∧
    Decodes (rType 17 5 rt fs 0 0) (.dmtc1 rt fs) ∧
    NeedsCp1 (.mfc1 rt fs) s (WritesReg (.mfc1 rt fs) s rt ((s.fprWord fs).signExtend 64)) ∧
    NeedsCp1 (.dmfc1 rt fs) s (NeedsUx (.dmfc1 rt fs) s (NeedsPairs (.dmfc1 rt fs) s [fs] (WritesReg (.dmfc1 rt fs) s rt (s.fprFile fs)))) ∧
    NeedsCp1 (.mtc1 rt fs) s (WritesFprWord (.mtc1 rt fs) s fs ((s.reg rt).setWidth 32) []) ∧
    NeedsCp1 (.dmtc1 rt fs) s (NeedsUx (.dmtc1 rt fs) s (NeedsPairs (.dmtc1 rt fs) s [fs] (WritesFpr (.dmtc1 rt fs) s fs (s.reg rt) []))) ∧
    NeedsCp1 (.cfc1 rt fs) s (∃ t v, exec (.cfc1 rt fs) s = .next t ∧ Advances s t ∧ t.reg rt = (if rt = 0 then 0 else v) ∧ KeepsRegsBut s t rt ∧
      (fs = 31 → v = s.fsr.image.signExtend 64 ∧ t.fpiSeen = s.fsr.fpi) ∧
      (fs = 0 → v = (fConfigImage Config.fconfigImp Config.fconfigRev).signExtend 64) ∧
      (fs ≠ 31 → t.fpiSeen = s.fpiSeen) ∧ KeepsAllBut s t [.regs, .fpiSeen])) ∧
  (∀ (s : State) (rt fs : Reg), Decodes (rType 17 6 rt fs 0 0) (.ctc1 rt fs) ∧
    NeedsCp1 (.ctc1 rt fs) s
      ((fs ≠ 31 → DoesNothing (.ctc1 rt fs) s) ∧
      (fs = 31 → ∃ f : Fsr,
        f = { Fsr.ofWord ((s.reg rt).setWidth 32) with
          flags := (Fsr.ofWord ((s.reg rt).setWidth 32)).flags ||| (Fsr.ofWord ((s.reg rt).setWidth 32)).cause } ∧
        (s.statusView.dm = true ∧ (f.cause &&& f.enable ≠ 0 ∨ f.e = true) →
          exec (.ctc1 rt fs) s = .next (takeException .floatingPoint { s with fsr := f })) ∧
        (¬(s.statusView.dm = true ∧ (f.cause &&& f.enable ≠ 0 ∨ f.e = true)) →
          ∃ t, exec (.ctc1 rt fs) s = .next t ∧ Advances s t ∧ t.fsr = f ∧ KeepsAllBut s t [.fsr] ∧
            ∀ n : CC, s.fsr.cc n = f.cc n → t.fccBusy.getLsbD n.toNat = false))))

/-- BC1F, BC1T, BC1FL, BC1TL and the ten floating-point moves: condition, effect, completion, frame. (46_fp_mem_move.md R489 to R493, 70_reset_and_hazards.md R670, 60_exceptions.md R612, 43_branch_jump.md R340, 46_fp_mem_move.md R494, R496 to R499, 10_state.md R26.)

Each word decodes to its instruction. Where coprocessor 1 is usable, and for a code other than 0 the SGI-extended instructions are enabled, outside a delay slot: the branch is taken to the delay slot's address plus four times the offset when the condition code has the tested value; the likely forms nullify the slot when not taken. When the instruction before wrote the code its value is undefined (R489, R670) and either happens (a free choice, log 28). A code other than 0 without the extensions is a Reserved Instruction (R489, R612; log 54). Nothing else changes. In a delay slot it is refused (R340; the model's choice, log 49). Each word decodes to its instruction. Where coprocessor 1 is usable (and XX on for the conditional ones) and, for D, with legal registers: the 32 or 64 bits of fs are copied to fd when the condition holds, and nothing changes when it does not. The FSR, every other register and all of memory are unchanged. With FR = 0 a 32-bit move may name an odd register and a 64-bit one is refused (R26, log 21). -/
def Obligations.FloatBranchesAndMoves : Prop :=
  (∀ (s : State) (cc : CC) (off : BitVec 16),
    Decodes (iType 17 8 (cc ++ 0#2) off) (.bc1f cc off) ∧
    NeedsCp1 (.bc1f cc off) s ((cc ≠ 0 → ¬XxOn s → Raises (.bc1f cc off) s .reservedInstruction) ∧
      (cc = 0 ∨ XxOn s →
        (s.inSlot = true → exec (.bc1f cc off) s = .refused .transferInDelaySlot) ∧
        (s.inSlot = false → s.fccBusy.getLsbD cc.toNat = false →
          Branches (.bc1f cc off) s (s.fsr.cc cc = false) (s.pc + 4 + BitVec.ofInt 64 (4 * off.toInt)) none) ∧
        (s.inSlot = false → s.fccBusy.getLsbD cc.toNat = true →
          Transfers (.bc1f cc off) s (s.pc + 4 + BitVec.ofInt 64 (4 * off.toInt)) none ∨ FallsThrough (.bc1f cc off) s none))) ∧
    Decodes (iType 17 8 (cc ++ 1#2) off) (.bc1t cc off) ∧
    NeedsCp1 (.bc1t cc off) s ((cc ≠ 0 → ¬XxOn s → Raises (.bc1t cc off) s .reservedInstruction) ∧
      (cc = 0 ∨ XxOn s →
        (s.inSlot = true → exec (.bc1t cc off) s = .refused .transferInDelaySlot) ∧
        (s.inSlot = false → s.fccBusy.getLsbD cc.toNat = false →
          Branches (.bc1t cc off) s (s.fsr.cc cc = true) (s.pc + 4 + BitVec.ofInt 64 (4 * off.toInt)) none) ∧
        (s.inSlot = false → s.fccBusy.getLsbD cc.toNat = true →
          Transfers (.bc1t cc off) s (s.pc + 4 + BitVec.ofInt 64 (4 * off.toInt)) none ∨ FallsThrough (.bc1t cc off) s none))) ∧
    Decodes (iType 17 8 (cc ++ 2#2) off) (.bc1fl cc off) ∧
    NeedsCp1 (.bc1fl cc off) s ((cc ≠ 0 → ¬XxOn s → Raises (.bc1fl cc off) s .reservedInstruction) ∧
      (cc = 0 ∨ XxOn s →
        (s.inSlot = true → exec (.bc1fl cc off) s = .refused .transferInDelaySlot) ∧
        (s.inSlot = false → s.fccBusy.getLsbD cc.toNat = false →
          BranchesLikely (.bc1fl cc off) s (s.fsr.cc cc = false) (s.pc + 4 + BitVec.ofInt 64 (4 * off.toInt)) none) ∧
        (s.inSlot = false → s.fccBusy.getLsbD cc.toNat = true →
          Transfers (.bc1fl cc off) s (s.pc + 4 + BitVec.ofInt 64 (4 * off.toInt)) none ∨ SkipsSlot (.bc1fl cc off) s none))) ∧
    Decodes (iType 17 8 (cc ++ 3#2) off) (.bc1tl cc off) ∧
    NeedsCp1 (.bc1tl cc off) s ((cc ≠ 0 → ¬XxOn s → Raises (.bc1tl cc off) s .reservedInstruction) ∧
      (cc = 0 ∨ XxOn s →
        (s.inSlot = true → exec (.bc1tl cc off) s = .refused .transferInDelaySlot) ∧
        (s.inSlot = false → s.fccBusy.getLsbD cc.toNat = false →
          BranchesLikely (.bc1tl cc off) s (s.fsr.cc cc = true) (s.pc + 4 + BitVec.ofInt 64 (4 * off.toInt)) none) ∧
        (s.inSlot = false → s.fccBusy.getLsbD cc.toNat = true →
          Transfers (.bc1tl cc off) s (s.pc + 4 + BitVec.ofInt 64 (4 * off.toInt)) none ∨ SkipsSlot (.bc1tl cc off) s none)))) ∧
  (∀ (s : State) (rt fs fd : Reg) (cc : CC),
    Decodes (rType 17 16 0 fs fd 6) (.movS fs fd) ∧
    NeedsCp1 (.movS fs fd) s (WritesFprWord (.movS fs fd) s fd (s.fprWord fs) []) ∧
    Decodes (rType 17 16 (cc ++ 0#2) fs fd 17) (.movfS cc fs fd) ∧
    NeedsCp1 (.movfS cc fs fd) s (NeedsXx (.movfS cc fs fd) s ((s.fsr.cc cc = false → WritesFprWord (.movfS cc fs fd) s fd (s.fprWord fs) []) ∧ (¬(s.fsr.cc cc = false) → DoesNothing (.movfS cc fs fd) s))) ∧
    Decodes (rType 17 16 (cc ++ 1#2) fs fd 17) (.movtS cc fs fd) ∧
    NeedsCp1 (.movtS cc fs fd) s (NeedsXx (.movtS cc fs fd) s ((s.fsr.cc cc = true → WritesFprWord (.movtS cc fs fd) s fd (s.fprWord fs) []) ∧ (¬(s.fsr.cc cc = true) → DoesNothing (.movtS cc fs fd) s))) ∧
    Decodes (rType 17 16 rt fs fd 18) (.movzS rt fs fd) ∧
    NeedsCp1 (.movzS rt fs fd) s (NeedsXx (.movzS rt fs fd) s ((s.reg rt = 0 → WritesFprWord (.movzS rt fs fd) s fd (s.fprWord fs) []) ∧ (¬(s.reg rt = 0) → DoesNothing (.movzS rt fs fd) s))) ∧
    Decodes (rType 17 16 rt fs fd 19) (.movnS rt fs fd) ∧
    NeedsCp1 (.movnS rt fs fd) s (NeedsXx (.movnS rt fs fd) s ((s.reg rt ≠ 0 → WritesFprWord (.movnS rt fs fd) s fd (s.fprWord fs) []) ∧ (¬(s.reg rt ≠ 0) → DoesNothing (.movnS rt fs fd) s))) ∧
    Decodes (rType 17 17 0 fs fd 6) (.movD fs fd) ∧
    NeedsCp1 (.movD fs fd) s (NeedsPairs (.movD fs fd) s [fd, fs] (WritesFpr (.movD fs fd) s fd (s.fprFile fs) [])) ∧
    Decodes (rType 17 17 (cc ++ 0#2) fs fd 17) (.movfD cc fs fd) ∧
    NeedsCp1 (.movfD cc fs fd) s (NeedsXx (.movfD cc fs fd) s (NeedsPairs (.movfD cc fs fd) s [fd, fs] ((s.fsr.cc cc = false → WritesFpr (.movfD cc fs fd) s fd (s.fprFile fs) []) ∧ (¬(s.fsr.cc cc = false) → DoesNothing (.movfD cc fs fd) s)))) ∧
    Decodes (rType 17 17 (cc ++ 1#2) fs fd 17) (.movtD cc fs fd) ∧
    NeedsCp1 (.movtD cc fs fd) s (NeedsXx (.movtD cc fs fd) s (NeedsPairs (.movtD cc fs fd) s [fd, fs] ((s.fsr.cc cc = true → WritesFpr (.movtD cc fs fd) s fd (s.fprFile fs) []) ∧ (¬(s.fsr.cc cc = true) → DoesNothing (.movtD cc fs fd) s)))) ∧
    Decodes (rType 17 17 rt fs fd 18) (.movzD rt fs fd) ∧
    NeedsCp1 (.movzD rt fs fd) s (NeedsXx (.movzD rt fs fd) s (NeedsPairs (.movzD rt fs fd) s [fd, fs] ((s.reg rt = 0 → WritesFpr (.movzD rt fs fd) s fd (s.fprFile fs) []) ∧ (¬(s.reg rt = 0) → DoesNothing (.movzD rt fs fd) s)))) ∧
    Decodes (rType 17 17 rt fs fd 19) (.movnD rt fs fd) ∧
    NeedsCp1 (.movnD rt fs fd) s (NeedsXx (.movnD rt fs fd) s (NeedsPairs (.movnD rt fs fd) s [fd, fs] ((s.reg rt ≠ 0 → WritesFpr (.movnD rt fs fd) s fd (s.fprFile fs) []) ∧ (¬(s.reg rt ≠ 0) → DoesNothing (.movnD rt fs fd) s)))))

/-- The delivered value of every floating-point operation: the exact value rounded once, NaN, infinity, zero, the exceptions. (45_fp_arith.md R402 to R415, 45_fp_arith.md R418, R419, 45_fp_arith.md R428, R429, 10_state.md R25, R54, 92_eei_decisions.md D31, 93_implementation_defined.md U25, U27, U28.)

For single and double, every mode and all operands: what the result functions of the arithmetic instructions deliver. The bits stand for the number R25 gives them. A denormalized operand is a zero of its sign where denormals are flushed, and else raises E; a signaling NaN raises Invalid and delivers a quiet NaN, a quiet NaN delivers one and raises nothing. Otherwise sum, difference, product, quotient, square root, product plus or minus a third value and the conversions to a float format deliver the exact real result rounded once in the mode, with Inexact exactly when that changed it; the infinities, the zeros and their signs, Invalid (infinity minus infinity, zero times infinity, 0/0, infinity over infinity, root of a negative), Division by Zero, Overflow (infinity or the largest number by mode and sign) and a result below the smallest normal number are as R402 to R418 say. NMADD and NMSUB invert the sign. ABS and NEG change only the sign. RECIP and RSQRT are within their bound in units of the last place (RECIP away from the ends of the exponent range), with the special cases of R409 and R410. The model's choices: which NaN bits are signaling (log 23), the flags of a flushed operand and result and the smallest normal number where a tiny result rounds up to it (log 22), the error bounds (logs 24 and 51). -/
def Obligations.FloatValues : Prop :=
  (∀ (f : FloatFormat) (mode : FloatMode) (a b c : Word), (f = .single ∨ f = .double) →
    (∀ w : Word, (f.denormal w = true → mode.flush = true → (f.operand mode w).Num (f.sign w) 0) ∧
      (f.denormal w = false ∨ mode.flush = false → f.operand mode w = f.value w)) ∧
    Arithmetic f mode [a, b] (floatAdd f mode a b) (fun x d => GivesNan f d x)
        (Sums f mode (f.operand mode a) (f.operand mode b)) ∧
    Arithmetic f mode [a, b] (floatSub f mode a b) (fun x d => GivesNan f d x)
        (Sums f mode (f.operand mode a) (f.operand mode b).negate) ∧
    Arithmetic f mode [a, b] (floatMul f mode a b) (fun x d => GivesNan f d x)
        (Multiplies f mode (f.operand mode a) (f.operand mode b)) ∧
    Arithmetic f mode [a, b] (floatDiv f mode a b) (fun x d => GivesNan f d x)
        (Divides f mode (f.operand mode a) (f.operand mode b)) ∧
    Arithmetic f mode [a] (floatSqrt f mode a) (fun x d => GivesNan f d x)
        (Roots f mode (f.operand mode a)) ∧
    Arithmetic f mode [a] (floatRecip f mode a) (fun x d => GivesNan f d x)
        (Reciprocates f (f.operand mode a)) ∧
    Arithmetic f mode [a] (floatRsqrt f mode a) (fun x d => GivesNan f d x)
        (RootReciprocates f (f.operand mode a)) ∧
    Arithmetic f mode [a, b, c] (floatMadd f mode a b c) (fun x d => GivesNan f d x)
        (MultipliesAndAdds f mode (f.operand mode a) (f.operand mode b) (f.operand mode c)) ∧
    Arithmetic f mode [a, b, c] (floatMsub f mode a b c) (fun x d => GivesNan f d x)
        (MultipliesAndAdds f mode (f.operand mode a) (f.operand mode b) (f.operand mode c).negate) ∧
    (f.value (floatNmadd f mode a b c).value = (f.value (floatMadd f mode a b c).value).negate ∧
      (floatNmadd f mode a b c).raised = (floatMadd f mode a b c).raised ∧ (floatNmadd f mode a b c).e = (floatMadd f mode a b c).e) ∧
    (f.value (floatNmsub f mode a b c).value = (f.value (floatMsub f mode a b c).value).negate ∧
      (floatNmsub f mode a b c).raised = (floatMsub f mode a b c).raised ∧ (floatNmsub f mode a b c).e = (floatMsub f mode a b c).e) ∧
    (f.value a = .nan true → GivesNan f (floatAbs f mode a) flagV) ∧ (f.value a = .nan false → GivesNan f (floatAbs f mode a) 0) ∧
    (∀ p, f.value a = .inf p → GivesInf f (floatAbs f mode a) false 0) ∧
    (∀ p m e, f.value a = .fin p m e → f.value (floatAbs f mode a).value = .fin false m e ∧ (floatAbs f mode a).raised = 0 ∧ (floatAbs f mode a).e = false) ∧
    (f.value a = .nan true → GivesNan f (floatNeg f mode a) flagV) ∧ (f.value a = .nan false → GivesNan f (floatNeg f mode a) 0) ∧
    (∀ p, f.value a = .inf p → GivesInf f (floatNeg f mode a) (!p) 0) ∧
    (∀ p m e, f.value a = .fin p m e → f.value (floatNeg f mode a).value = .fin (!p) m e ∧ (floatNeg f mode a).raised = 0 ∧ (floatNeg f mode a).e = false) ∧
    (∀ g : FloatFormat, (g = .single ∨ g = .double) →
      Arithmetic f mode [a] (floatConvert f g mode a) (fun x d => GivesNan g d x) fun d =>
        (∀ p, f.operand mode a = .inf p → GivesInf g d p 0) ∧
        ∀ p x, (f.operand mode a).Num p x → DeliversAny g mode x p d) ∧
    (∀ n : ℤ, DeliversAny f mode n false (integerToFloat f mode n))) ∧
  (∀ (p : Bool) (m : Nat) (e : Int), FloatVal.negate (.inf p) = .inf (!p) ∧ FloatVal.negate (.fin p m e) = .fin (!p) m e) ∧
  (∀ w : Word, let E : Nat := w.toNat / 2 ^ 23 % 2 ^ 8
    let F : Nat := w.toNat % 2 ^ 23
    (E = 255 → FloatFormat.single.value w = if F = 0 then .inf (w.getLsbD 31) else .nan (w.getLsbD 22)) ∧
    (E = 0 → FloatFormat.single.value w = .fin (w.getLsbD 31) F (-149)) ∧
    (0 < E → E < 255 → FloatFormat.single.value w = .fin (w.getLsbD 31) (2 ^ 23 + F) ((E : ℤ) - 150))) ∧
  (∀ w : Word, let E : Nat := w.toNat / 2 ^ 52 % 2 ^ 11
    let F : Nat := w.toNat % 2 ^ 52
    (E = 2047 → FloatFormat.double.value w = if F = 0 then .inf (w.getLsbD 63) else .nan (w.getLsbD 51)) ∧
    (E = 0 → FloatFormat.double.value w = .fin (w.getLsbD 63) F (-1074)) ∧
    (0 < E → E < 2047 → FloatFormat.double.value w = .fin (w.getLsbD 63) (2 ^ 52 + F) ((E : ℤ) - 1075)))

/-- What happens between two instructions: bus events, coherence violations, FPI, the counter, and the windows of late writes. (60_exceptions.md R595 to R600, 20_memory.md R154, R156, 70_reset_and_hazards.md R640, R667, R668, 10_state.md R36, R38, R43, R58, 92_eei_decisions.md D20, D32, D37, D39.)

An interrupt status transfer loads IP7 to IP2, requests an NMI and loads BE, each where its enable is set; an invalidation clears the valid bits of one data cache line and LLbit (that TAG, E and data stay is the model's choice, log 42); a parity error sets IP8 or IP9; a hard reset leaves what reset leaves, keeping memory (log 52). One event is taken at each boundary (log 30). Counts advances by a positive free amount (log 48), but not at exception level with ICE; IP10 is Counts[31]. FPI follows the enabled flags and E of the FSR after a free delay (log 29). A floating-point reference to a sector held under another synonym with SMM = 0 is a violation, but where the sector was lost (log 43); its address is captured unless VCI is set or one is captured already; it is posted at a free time, setting VCI and, with a captured address, BadPAddr. A DMTC0 to Status opens a window of 4 SSNOPs, to TrapBase, Config, ICache, Wired, Counts or Cause one of 2, in which each field the machine goes by is the old or the new one, UPS and KPS being the new ones, as are the fields of Cause that no DMTC0 writes; of Counts it is IP10; each SSNOP brings it nearer its end (log 47). The positions of IP10 and FPI in Cause are those of log 1. -/
def Obligations.EventsAndLateWrites : Prop :=
  (∀ (s : State) (ipEn nmiEn beEn : Bool) (ip : BitVec 6) (nmi be : Bool),
      let t := s.receive (.interruptStatus ipEn nmiEn beEn ip nmi be)
      t.cp0 = { s.cp0 with cause := { s.cp0.cause with ip := t.cp0.cause.ip, be := if beEn then be else s.cp0.cause.be } } ∧
      (∀ n, n < 10 → t.cp0.cause.ip.getLsbD n =
        if ipEn = true ∧ 2 ≤ n ∧ n < 8 then ip.getLsbD (n - 2) else s.cp0.cause.ip.getLsbD n) ∧
      t.nmiPending = (s.nmiPending || (nmiEn && nmi)) ∧ Stays s t ∧ KeepsAllBut s t [.cp0, .nmiPending]) ∧
  (∀ (s : State) (line : BitVec 9), let t := s.receive (.invalidateDCache line)
      t.dline line.toNat = { s.dline line.toNat with valid := 0 } ∧ t.llbit = false ∧
      (∀ k, k ≠ line.toNat → t.dline k = s.dline k) ∧ Stays s t ∧ KeepsAllBut s t [.dcache, .llbit]) ∧
  (∀ (s : State) (odd : Bool), let t := s.receive (.parityError odd)
      t.cp0 = { s.cp0 with cause := { s.cp0.cause with ip := t.cp0.cause.ip } } ∧
      (∀ n, n < 10 → t.cp0.cause.ip.getLsbD n = (s.cp0.cause.ip.getLsbD n || n == (if odd then 9 else 8))) ∧
      Stays s t ∧ KeepsAllBut s t [.cp0]) ∧
  (∀ s : State, s.receive .idle = s ∧ (let t := s.receive .hardReset
      t.pc = 0x900000001fc00000 ∧ t.npc = 0x900000001fc00004 ∧ t.inSlot = false ∧ t.user = false ∧ t.maskable = false ∧
      t.cp0.cause.nmi = false ∧ t.cp0.config = { be := true, pm := false, ice := true, smm := true } ∧ t.nmiPending = false ∧
      t.mem = s.mem ∧ t.physMap = s.physMap ∧ t.dcacheWritten = [])) ∧
  (∀ s : State, (s.inputs = [] → s.takeInput = s) ∧
    (∀ e l, s.inputs = e :: l → s.takeInput = State.receive { s with inputs := l } e) ∧
    s.boundary = s.draw.takeInput.postViolation.followFpi.tick ∧ s.draw = { s with draws := s.draws + 1 }) ∧
  (∀ s : State, let t := s.tick
    (s.configView.ice = true → s.statusView.exl = true → t = s) ∧
    (¬(s.configView.ice = true ∧ s.statusView.exl = true) → t = { s with cp0 := { s.cp0 with
      counts := s.cp0.counts + 1 + BitVec.ofNat 32 (Config.freeNat .cycles s.draws) } }) ∧
    (s.late.counts = none → s.ip10 = s.cp0.counts.getLsbD 31 ∧ (s.readCop0 13).getLsbD 18 = s.cp0.counts.getLsbD 31) ∧
    s.pendingBits.getLsbD 10 = s.ip10 ∧ ∀ n, n < 10 → s.pendingBits.getLsbD n = s.causeView.ip.getLsbD n) ∧
  (∀ s : State, (s.followFpi = s ∨ s.followFpi = { s with fpiSeen := s.fsr.fpi }) ∧
    (s.followFpi = s ↔ s.fsr.fpi = s.fpiSeen ∨ Config.freeBool .fpi s.draws = false) ∧
    (s.fsr.fpi = true ↔ (∃ n, n < 5 ∧ s.fsr.flags.getLsbD n = true ∧ s.fsr.enable.getLsbD n = true) ∨ s.fsr.e = true) ∧
    (s.readCop0 13).getLsbD 24 = s.fpiSeen) ∧
  (∀ (s : State) (va : Word) (t : Translation), let u := s.floatSynonym va t
    let vs := va.extractLsb' 12 4
    (t.cachable = true ↔ t.c = 3 ∨ t.c = 4 ∨ t.c = 5) ∧ (t.cachable = false → u = s) ∧
    (t.cachable = true → s.synonym t.pa = none → u.synonym t.pa = some vs ∧ KeepsAllBut s u [.scache]) ∧
    (s.synonym t.pa = some vs → u = s) ∧
    (∀ x, t.cachable = true → s.synonym t.pa = some x → x ≠ vs →
      (Config.freeBool .sectorReplaced s.draws = true →
        u.synonym t.pa = some vs ∧ u.llbit = false ∧ u.vciPending = s.vciPending ∧ KeepsAllBut s u [.dcache, .scache, .llbit]) ∧
      (Config.freeBool .sectorReplaced s.draws = false → s.configView.smm = true → u = s) ∧
      (Config.freeBool .sectorReplaced s.draws = false → s.configView.smm = false → u = { s with vciPending := s.vciPending ++
        [if s.causeView.vci = true ∨ (∃ v ∈ s.vciPending, v.isSome = true) then none else some ⟨t.pa, vs⟩] }))) ∧
  (∀ s : State, (s.vciPending = [] → s.postViolation = s) ∧ s.postViolations 0 = s ∧
    (∃ n, n ≤ s.vciPending.length ∧ s.postViolation = s.postViolations n) ∧
    ∀ n, 0 < n → n ≤ s.vciPending.length → let t := s.postViolations n
      t.vciPending = s.vciPending.drop n ∧
      t.cp0 = { s.cp0 with cause := { s.cp0.cause with vci := true }, badPAddr := t.cp0.badPAddr } ∧
      ((∀ v, some v ∉ s.vciPending.take n) → t.cp0.badPAddr = s.cp0.badPAddr) ∧
      (∀ v l m, s.vciPending.take n = l ++ some v :: m → (∀ w, some w ∉ l) → t.cp0.badPAddr = v) ∧
      Stays s t ∧ KeepsAllBut s t [.cp0, .vciPending]) ∧
  (∀ (s : State) (rd : Reg),
    (rd ∉ [6, 9, 12, 13, 16, 24, 29] → s.openWindow rd = s.late) ∧
    s.openWindow 12 = { s.late with status := some ⟨s.statusView, 4⟩ } ∧
    s.openWindow 6 = { s.late with trapBase := some ⟨s.trapBaseView, 2⟩ } ∧
    s.openWindow 16 = { s.late with config := some ⟨s.configView, 2⟩ } ∧
    s.openWindow 29 = { s.late with iasid := some ⟨s.iasidView, 2⟩ } ∧
    s.openWindow 24 = { s.late with wired := some ⟨s.wiredView, 2⟩ } ∧
    s.openWindow 9 = { s.late with counts := some ⟨s.ip10, 2⟩ } ∧ s.openWindow 13 = { s.late with cause := some ⟨s.causeView, 2⟩ }) ∧
  (∀ (s : State) (rd : Reg) (v : Word), (s.writeCop0 rd v).late = s.openWindow rd) ∧
  (∀ s : State, ∃ t, exec .ssnop s = .next t ∧
    (∀ n old, s.late.status = some ⟨old, n⟩ → t.late.status = if n ≤ 1 then none else some ⟨old, n - 1⟩) ∧
    (∀ n old, s.late.trapBase = some ⟨old, n⟩ → t.late.trapBase = if n ≤ 1 then none else some ⟨old, n - 1⟩) ∧
    (∀ n old, s.late.config = some ⟨old, n⟩ → t.late.config = if n ≤ 1 then none else some ⟨old, n - 1⟩) ∧
    (∀ n old, s.late.iasid = some ⟨old, n⟩ → t.late.iasid = if n ≤ 1 then none else some ⟨old, n - 1⟩) ∧
    (∀ n old, s.late.wired = some ⟨old, n⟩ → t.late.wired = if n ≤ 1 then none else some ⟨old, n - 1⟩) ∧
    (∀ n old, s.late.counts = some ⟨old, n⟩ → t.late.counts = if n ≤ 1 then none else some ⟨old, n - 1⟩) ∧
    (∀ n old, s.late.cause = some ⟨old, n⟩ → t.late.cause = if n ≤ 1 then none else some ⟨old, n - 1⟩)) ∧
  (∀ s : State, let v := s.statusView
    let new := s.cp0.status
    (s.late.status = none → v = new) ∧ v.ups = new.ups ∧ v.kps = new.kps ∧
    ∀ old n, s.late.status = some ⟨old, n⟩ →
      (v.ie = old.ie ∨ v.ie = new.ie) ∧ (v.exl = old.exl ∨ v.exl = new.exl) ∧ (v.ku = old.ku ∨ v.ku = new.ku) ∧
      (v.ux = old.ux ∨ v.ux = new.ux) ∧ (v.xx = old.xx ∨ v.xx = new.xx) ∧ (v.im = old.im ∨ v.im = new.im) ∧
      (v.re = old.re ∨ v.re = new.re) ∧ (v.fr = old.fr ∨ v.fr = new.fr) ∧ (v.cu0 = old.cu0 ∨ v.cu0 = new.cu0) ∧
      (v.cu1 = old.cu1 ∨ v.cu1 = new.cu1) ∧ (v.dm = old.dm ∨ v.dm = new.dm)) ∧
  (∀ s : State, (s.late.trapBase = none → s.trapBaseView = s.cp0.trapBase) ∧
    (∀ old n, s.late.trapBase = some ⟨old, n⟩ → s.trapBaseView = old ∨ s.trapBaseView = s.cp0.trapBase) ∧
    (s.late.config = none → s.configView = s.cp0.config) ∧
    (∀ old n, s.late.config = some ⟨old, n⟩ → s.configView = old ∨ s.configView = s.cp0.config) ∧
    (s.late.iasid = none → s.iasidView = s.cp0.iasid) ∧
    (∀ old n, s.late.iasid = some ⟨old, n⟩ → s.iasidView = old ∨ s.iasidView = s.cp0.iasid) ∧
    (s.late.wired = none → s.wiredView = s.cp0.wired) ∧
    (∀ old n, s.late.wired = some ⟨old, n⟩ → s.wiredView = old ∨ s.wiredView = s.cp0.wired) ∧
    (s.late.counts = none → s.ip10 = s.cp0.counts.getLsbD 31) ∧
    (∀ old n, s.late.counts = some ⟨old, n⟩ → s.ip10 = old ∨ s.ip10 = s.cp0.counts.getLsbD 31)) ∧
  (∀ s : State, let v := s.causeView
    let new := s.cp0.cause
    (s.late.cause = none → v = new) ∧ v.bd = new.bd ∧ v.ce = new.ce ∧ v.be = new.be ∧ v.excCode = new.excCode ∧
    (∀ k, 2 ≤ k → k < 8 → v.ip.getLsbD k = new.ip.getLsbD k) ∧
    ∀ old n, s.late.cause = some ⟨old, n⟩ →
      (v.nmi = old.nmi ∨ v.nmi = new.nmi) ∧ (v.vci = old.vci ∨ v.vci = new.vci) ∧
      ∀ k, k < 10 → v.ip.getLsbD k = old.ip.getLsbD k ∨ v.ip.getLsbD k = new.ip.getLsbD k)
end

