-- ==== Sys2Proof/Laws/CMap.lean ====
section
/-! SUPPORT. Sparse tables: reading after writing, and the canonical form. -/

namespace Sys2Proof.Machine

variable {α : Type}

theorem CMap.get_erase_same (d : Nat → α) (m : List (Nat × α)) (k : Nat) :
    CMap.get d (CMap.erase m k) k = d k := by
  induction m with
  | nil => rfl
  | cons p m ih =>
    obtain ⟨a, v⟩ := p
    by_cases h : a = k <;> simp [CMap.erase, CMap.get, h, ih]

theorem CMap.get_erase_other (d : Nat → α) (m : List (Nat × α)) {k j : Nat} (h : j ≠ k) :
    CMap.get d (CMap.erase m k) j = CMap.get d m j := by
  induction m with
  | nil => rfl
  | cons p m ih =>
    obtain ⟨a, v⟩ := p
    by_cases ha : a = k
    · have : a ≠ j := by omega
      simp [CMap.erase, CMap.get, ha, ih, Ne.symm h]
    · simp [CMap.erase, CMap.get, ha, ih]

theorem CMap.get_insert_same (d : Nat → α) (m : List (Nat × α)) (k : Nat) (v : α) (h : ∀ p ∈ m, p.1 ≠ k) :
    CMap.get d (CMap.insert m k v) k = v := by
  induction m with
  | nil => simp [CMap.insert, CMap.get]
  | cons p m ih =>
    obtain ⟨a, w⟩ := p
    have ha : a ≠ k := h (a, w) (by simp)
    by_cases hk : k < a
    · simp [CMap.insert, CMap.get, hk]
    · simp [CMap.insert, CMap.get, hk, ha, ih fun q hq => h q (by simp [hq])]

theorem CMap.get_insert_other (d : Nat → α) (m : List (Nat × α)) {k j : Nat} (v : α) (h : j ≠ k) :
    CMap.get d (CMap.insert m k v) j = CMap.get d m j := by
  induction m with
  | nil => simp [CMap.insert, CMap.get, Ne.symm h]
  | cons p m ih =>
    obtain ⟨a, w⟩ := p
    by_cases hk : k < a
    · simp [CMap.insert, CMap.get, hk, Ne.symm h]
    · simp [CMap.insert, CMap.get, hk, ih]

theorem CMap.key_of_mem_erase {m : List (Nat × α)} {k : Nat} {p : Nat × α} (h : p ∈ CMap.erase m k) :
    p ∈ m ∧ p.1 ≠ k := by
  induction m with
  | nil => simp [CMap.erase] at h
  | cons q m ih =>
    obtain ⟨a, v⟩ := q
    by_cases ha : a = k
    · simp only [CMap.erase, ha, if_true] at h
      exact ⟨by simp [(ih h).1], (ih h).2⟩
    · simp only [CMap.erase, ha, if_false, List.mem_cons] at h
      rcases h with h | h
      · subst h; exact ⟨by simp, ha⟩
      · exact ⟨by simp [(ih h).1], (ih h).2⟩

theorem CMap.mem_of_mem_insert {m : List (Nat × α)} {k : Nat} {v : α} {p : Nat × α} (h : p ∈ CMap.insert m k v) :
    p = (k, v) ∨ p ∈ m := by
  induction m with
  | nil => simpa [CMap.insert] using h
  | cons q m ih =>
    obtain ⟨a, w⟩ := q
    by_cases hk : k < a
    · simpa [CMap.insert, hk] using h
    · simp only [CMap.insert, hk, if_false, List.mem_cons] at h
      rcases h with h | h
      · simp [h]
      · rcases ih h with h | h <;> simp [h]

theorem CMap.pairwise_erase {m : List (Nat × α)} (k : Nat) (h : m.Pairwise fun p q => p.1 < q.1) :
    (CMap.erase m k).Pairwise fun p q => p.1 < q.1 := by
  induction m with
  | nil => simp [CMap.erase]
  | cons p m ih =>
    obtain ⟨a, v⟩ := p
    rw [List.pairwise_cons] at h
    by_cases ha : a = k
    · simpa [CMap.erase, ha] using ih h.2
    · simp only [CMap.erase, ha, if_false, List.pairwise_cons]
      exact ⟨fun q hq => h.1 q (CMap.key_of_mem_erase hq).1, ih h.2⟩

theorem CMap.pairwise_insert {m : List (Nat × α)} {k : Nat} (v : α) (hk : ∀ p ∈ m, p.1 ≠ k)
    (h : m.Pairwise fun p q => p.1 < q.1) : (CMap.insert m k v).Pairwise fun p q => p.1 < q.1 := by
  induction m with
  | nil => simp [CMap.insert]
  | cons p m ih =>
    obtain ⟨a, w⟩ := p
    by_cases hka : k < a
    · simp only [CMap.insert, hka, if_true, List.pairwise_cons]
      rw [List.pairwise_cons] at h
      refine ⟨fun q hq => ?_, h⟩
      rcases List.mem_cons.1 hq with hq | hq
      · subst hq; exact hka
      · exact Nat.lt_trans hka (h.1 q hq)
    · rw [List.pairwise_cons] at h
      have hne : a ≠ k := hk (a, w) (by simp)
      simp only [CMap.insert, hka, if_false, List.pairwise_cons]
      refine ⟨fun q hq => ?_, ih (fun q hq => hk q (by simp [hq])) h.2⟩
      rcases CMap.mem_of_mem_insert hq with hq | hq
      · subst hq; show a < k; omega
      · exact h.1 q hq

section
variable [DecidableEq α]

/-- The canonical form as two plain properties. -/
theorem CMap.wf_iff (d : Nat → α) (m : List (Nat × α)) :
    CMap.wf d m = true ↔ (∀ p ∈ m, p.2 ≠ d p.1) ∧ m.Pairwise fun p q => p.1 < q.1 := by
  induction m with
  | nil => simp [CMap.wf]
  | cons p m ih =>
    obtain ⟨a, v⟩ := p
    cases m with
    | nil => simp [CMap.wf]
    | cons q m =>
      obtain ⟨b, w⟩ := q
      simp only [CMap.wf, Bool.and_eq_true, decide_eq_true_eq, ih, List.pairwise_cons, List.mem_cons,
        forall_eq_or_imp]
      constructor
      · rintro ⟨⟨hv, hab⟩, ⟨hw, hm⟩, hb, hp⟩
        exact ⟨⟨hv, hw, hm⟩, ⟨hab, fun q hq => Nat.lt_trans hab (hb q hq)⟩, hb, hp⟩
      · rintro ⟨⟨hv, hw, hm⟩, ⟨hab, _⟩, hb, hp⟩
        exact ⟨⟨hv, hab⟩, ⟨hw, hm⟩, hb, hp⟩

/-- A key reads what was written to it. -/
theorem CMap.get_set_same (d : Nat → α) (m : List (Nat × α)) (k : Nat) (v : α) :
    CMap.get d (CMap.set d m k v) k = v := by
  unfold CMap.set
  split
  · next h => rw [CMap.get_erase_same, h]
  · exact CMap.get_insert_same d _ k v fun p hp => (CMap.key_of_mem_erase hp).2

/-- Every other key reads what it did before. -/
theorem CMap.get_set_other (d : Nat → α) (m : List (Nat × α)) {k j : Nat} (v : α) (h : j ≠ k) :
    CMap.get d (CMap.set d m k v) j = CMap.get d m j := by
  unfold CMap.set
  split
  · exact CMap.get_erase_other d m h
  · rw [CMap.get_insert_other d _ v h, CMap.get_erase_other d m h]

/-- A key read after a write: the two cases at once. -/
theorem CMap.get_set (d : Nat → α) (m : List (Nat × α)) (k j : Nat) (v : α) :
    CMap.get d (CMap.set d m k v) j = if j = k then v else CMap.get d m j := by
  split
  · next h => rw [h, CMap.get_set_same]
  · next h => exact CMap.get_set_other d m v h

/-- A write keeps the canonical form. -/
theorem CMap.wf_set (d : Nat → α) {m : List (Nat × α)} (k : Nat) (v : α) (h : CMap.wf d m = true) :
    CMap.wf d (CMap.set d m k v) = true := by
  rw [CMap.wf_iff] at h ⊢
  unfold CMap.set
  split
  · exact ⟨fun p hp => h.1 p (CMap.key_of_mem_erase hp).1, CMap.pairwise_erase k h.2⟩
  · next hv =>
    refine ⟨fun p hp => ?_, CMap.pairwise_insert v (fun p hp => (CMap.key_of_mem_erase hp).2)
      (CMap.pairwise_erase k h.2)⟩
    rcases CMap.mem_of_mem_insert hp with hp | hp
    · subst hp; exact hv
    · exact h.1 p (CMap.key_of_mem_erase hp).1

end

end Sys2Proof.Machine
end

