-- ==== Sys2Proof/Laws/Ops.lean ====
section
/-! SUPPORT. What the named operations over registers and memory do: read after write, the canonical form, and how the parts
of an instruction compose. -/

namespace Sys2Proof.Machine

/-! ## General registers -/

theorem State.reg_zero (s : State) : s.reg 0 = 0 := by simp [State.reg]

/-- The same in the normal form of literals. -/
@[simp] theorem State.reg_zero_literal (s : State) : s.reg 0#5 = 0#64 := s.reg_zero

@[simp] theorem State.setReg_zero (s : State) (v : Word) : s.setReg 0#5 v = s := by simp [State.setReg]

/-- A read depends on the register file alone. -/
theorem State.reg_congr {s t : State} (h : t.gpr = s.gpr) (r : Reg) : t.reg r = s.reg r := by
  simp [State.reg, h]

/-- A register reads what was written to it; r0 reads zero. -/
theorem State.reg_setReg_same (s : State) (r : Reg) (v : Word) : (s.setReg r v).reg r = if r = 0 then 0 else v := by
  unfold State.setReg State.reg
  split <;> simp_all

/-- A write to one register leaves every other one alone. -/
theorem State.reg_setReg_other (s : State) {r q : Reg} (v : Word) (h : q ≠ r) : (s.setReg r v).reg q = s.reg q := by
  by_cases hr : r = 0
  · rw [State.setReg, if_pos hr]
  · rw [State.setReg, if_neg hr]
    have hne : r.toNat ≠ q.toNat := fun e => h (BitVec.eq_of_toNat_eq e.symm)
    unfold State.reg
    split
    · rfl
    · exact Vector.getElem_set_ne r.isLt q.isLt hne

/-- A register after a write: every case at once. -/
theorem State.reg_setReg (s : State) (r q : Reg) (v : Word) :
    (s.setReg r v).reg q = if q = r then (if r = 0 then 0 else v) else s.reg q := by
  split
  · next h => rw [h, State.reg_setReg_same]
  · next h => exact State.reg_setReg_other s v h

/-! ## Memory -/

/-- A byte after a write: every case at once. -/
theorem Memory.read_write (m : List Host.Cell) (a b : Nat) (v : Byte) :
    Memory.read (Memory.write m a v) b = if b = a then v else Memory.read m b :=
  CMap.get_set Memory.unlisted m a b v

/-- A write keeps the canonical form. -/
theorem Memory.wf_write {m : List Host.Cell} (a : Nat) (v : Byte) (h : Memory.wf m = true) :
    Memory.wf (Memory.write m a v) = true := CMap.wf_set _ a v h

/-- Writing bytes keeps the canonical form. -/
theorem Memory.wf_writeList (takes : Nat → Bool) {m : List Host.Cell} (a : Nat) (bs : List Byte)
    (h : Memory.wf m = true) : Memory.wf (Memory.writeList takes m a bs) = true := by
  induction bs generalizing m a with
  | nil => exact h
  | cons b bs ih =>
    refine ih _ ?_
    split
    · exact Memory.wf_write a b h
    · exact h

/-- A byte after bytes are written: the one written to it, if it takes one, else what it was. -/
theorem Memory.read_writeList (takes : Nat → Bool) (m : List Host.Cell) (a : Nat) (bs : List Byte) (b : Nat) :
    Memory.read (Memory.writeList takes m a bs) b =
      if a ≤ b ∧ b < a + bs.length ∧ takes b = true then bs.getD (b - a) 0 else Memory.read m b := by
  induction bs generalizing m a with
  | nil => simp [Memory.writeList]; omega
  | cons v bs ih =>
    rw [Memory.writeList, ih, List.length_cons]
    have hr : Memory.read (if takes a = true then Memory.write m a v else m) b =
        if b = a ∧ takes a = true then v else Memory.read m b := by
      split <;> rename_i ht
      · rw [Memory.read_write]; simp [ht]
      · simp [ht]
    rw [hr]
    by_cases hb : b = a
    · subst hb; simp
    · by_cases hc : a + 1 ≤ b ∧ b < a + 1 + bs.length ∧ takes b = true
      · rw [if_pos hc, if_pos ⟨by omega, by omega, hc.2.2⟩, show b - a = b - (a + 1) + 1 by omega]; rfl
      · rw [if_neg hc, if_neg (by tauto), if_neg fun h => hc ⟨by omega, by omega, h.2.2⟩]

/-- A byte outside the written ones reads as before. -/
theorem Memory.read_writeList_outside (takes : Nat → Bool) (m : List Host.Cell) (a : Nat) (bs : List Byte) {b : Nat}
    (h : b < a ∨ a + bs.length ≤ b) : Memory.read (Memory.writeList takes m a bs) b = Memory.read m b := by
  rw [Memory.read_writeList, if_neg (by omega)]

/-- The byte-order record keeps its canonical form. -/
theorem ByteOrder.wf_mark (takes : Nat → Bool) {m : List (Nat × Option Bool)} (e : Bool) (a n : Nat)
    (h : CMap.wf ByteOrder.unlisted m = true) :
    CMap.wf ByteOrder.unlisted (ByteOrder.mark takes m e a n) = true := by
  induction n generalizing m a with
  | zero => exact h
  | succ n ih =>
    refine ih _ ?_
    split
    · exact CMap.wf_set _ _ _ h
    · exact h

/-- The byte-order record of a byte after a store. -/
theorem ByteOrder.get_mark (takes : Nat → Bool) (m : List (Nat × Option Bool)) (e : Bool) (a n b : Nat) :
    CMap.get ByteOrder.unlisted (ByteOrder.mark takes m e a n) b =
      if a ≤ b ∧ b < a + n ∧ takes b = true then some e else CMap.get ByteOrder.unlisted m b := by
  induction n generalizing m a with
  | zero => rw [if_neg (by omega)]; rfl
  | succ n ih =>
    rw [ByteOrder.mark, ih]
    by_cases hb : b = a
    · subst hb
      rw [if_neg (by omega)]
      by_cases ht : takes b = true <;> simp [ht, CMap.get_set]
    · have hr : CMap.get ByteOrder.unlisted (if takes a = true then CMap.set ByteOrder.unlisted m a (some e) else m) b =
          CMap.get ByteOrder.unlisted m b := by
        split
        · rw [CMap.get_set, if_neg hb]
        · rfl
      rw [hr]
      by_cases hc : a + 1 ≤ b ∧ b < a + 1 + n ∧ takes b = true
      · rw [if_pos hc, if_pos ⟨by omega, by omega, hc.2.2⟩]
      · rw [if_neg hc, if_neg fun h => hc ⟨by omega, by omega, h.2.2⟩]

/-- Bytes none of which was last stored in the other byte order. -/
theorem ByteOrder.mixed_eq_false (m : List (Nat × Option Bool)) (e : Bool) (a n : Nat) :
    ByteOrder.mixed m e a n = false ↔ ∀ b, a ≤ b → b < a + n → CMap.get ByteOrder.unlisted m b ≠ some (!e) := by
  induction n generalizing a with
  | zero => simp [ByteOrder.mixed]; omega
  | succ n ih =>
    rw [ByteOrder.mixed, Bool.or_eq_false_iff, ih]
    constructor
    · rintro ⟨h0, h1⟩ b hb hn
      by_cases hab : b = a
      · subst hab; simpa using h0
      · exact h1 b (by omega) (by omega)
    · intro h
      exact ⟨by simpa using h a (Nat.le_refl a) (by omega), fun b hb hn => h b (by omega) (by omega)⟩

/-! ## The physical map -/

@[simp] theorem State.physBytes_length (s : State) (a n : Nat) : (s.physBytes a n).length = n := by
  induction n generalizing a with
  | zero => rfl
  | succ n ih => simp [State.physBytes, ih]

/-- The k-th of the bytes that reads of consecutive physical addresses get. -/
theorem State.physBytes_getD (s : State) (a n k : Nat) (h : k < n) : (s.physBytes a n).getD k 0 = s.physByte (a + k) := by
  induction n generalizing a k with
  | zero => omega
  | succ n ih =>
    cases k with
    | zero => rfl
    | succ k => rw [State.physBytes, List.getD_cons_succ, ih _ _ (by omega), Nat.add_right_comm, Nat.add_assoc]

/-- Where memory stands, a read gets its byte. -/
theorem State.physByte_backed {s : State} {a : Nat} (h : s.backedAt a = true) : s.physByte a = Memory.read s.mem a := by
  simp [State.physByte, h]

/-- RAM is memory. -/
theorem State.backedAt_of_ramAt {s : State} {a : Nat} (h : s.ramAt a = true) : s.backedAt a = true := by
  rw [State.ramAt, beq_iff_eq] at h
  rw [State.backedAt, h]; rfl

/-! ## Registers whose last write may be late -/

@[simp] theorem lateView_closed {α : Type} (site : FreeSite) (n : Nat) (v : α) : lateView none site n v = v := rfl

/-- Status is in force as it stands when no write to it is late. -/
theorem State.statusView_of_closed {s : State} (h : s.late.status = none) : s.statusView = s.cp0.status := by
  simp [State.statusView, h]

/-- Cause is in force as it stands when no write to it is late. -/
theorem State.causeView_of_closed {s : State} (h : s.late.cause = none) : s.causeView = s.cp0.cause := by
  simp [State.causeView, h]

/-! ## Parts of an instruction -/

@[simp] theorem Access.bind_ok {α β : Type} (a : α) (f : α → Access β) : (Access.ok a).bind f = f a := rfl

@[simp] theorem Access.bind_raise {α β : Type} (e : Exc) (f : α → Access β) :
    (Access.raise e : Access α).bind f = .raise e := rfl

@[simp] theorem Access.bind_fault {α β : Type} (e : Fault) (f : α → Access β) :
    (Access.fault e : Access α).bind f = .fault e := rfl

@[simp] theorem Access.bind_refuse {α β : Type} (e : Refusal) (f : α → Access β) :
    (Access.refuse e : Access α).bind f = .refuse e := rfl

@[simp] theorem Access.finish_ok (s t : State) : (Access.ok t).finish s = .next t := rfl

@[simp] theorem Access.finish_raise (s : State) (e : Exc) : (Access.raise e).finish s = .next (takeException e s) := rfl

@[simp] theorem Access.finish_fault (s : State) (f : Fault) : (Access.fault f).finish s = .fault f := rfl

@[simp] theorem Access.finish_refuse (s : State) (r : Refusal) : (Access.refuse r).finish s = .refused r := rfl

/-- A sequence that gives a value gave one in each of its parts. -/
theorem Access.bind_eq_ok {α β : Type} {x : Access α} {f : α → Access β} {b : β} :
    x.bind f = .ok b ↔ ∃ a, x = .ok a ∧ f a = .ok b := by
  cases x <;> simp [Access.bind]

/-- The next state of an instruction is a value of its parts, or an exception from the state before it. -/
theorem Access.finish_eq_next {s t : State} {x : Access State} (h : x.finish s = .next t) :
    x = .ok t ∨ ∃ e, x = .raise e ∧ t = takeException e s := by
  cases x with
  | ok u => left; simpa [Access.finish] using h
  | raise e => right; exact ⟨e, rfl, by simpa [Access.finish] using h.symm⟩
  | fault f => simp [Access.finish] at h
  | refuse r => simp [Access.finish] at h

/-! ## Guards -/

theorem needCop0_ok {s : State} (h : s.usable0 = true) : needCop0 s = .ok () := by simp [needCop0, h]

theorem needCop0_raise {s : State} (h : s.usable0 = false) : needCop0 s = .raise (.coprocessorUnusable 0) := by
  simp [needCop0, h]

theorem needCop1_ok {s : State} (h : s.usable1 = true) : needCop1 s = .ok () := by simp [needCop1, h]

theorem needCop1_raise {s : State} (h : s.usable1 = false) : needCop1 s = .raise (.coprocessorUnusable 1) := by
  simp [needCop1, h]

theorem needUx_ok {s : State} (h : s.user = false ∨ s.statusView.ux = true) : needUx s = .ok () := by
  rcases h with h | h <;> simp [needUx, h]

theorem needUx_raise {s : State} (hu : s.user = true) (h : s.statusView.ux = false) :
    needUx s = .raise .reservedInstruction := by simp [needUx, hu, h]

theorem needXx_ok {s : State} (h : s.user = false ∨ s.statusView.xx = true) : needXx s = .ok () := by
  rcases h with h | h <;> simp [needXx, h]

theorem needXx_raise {s : State} (hu : s.user = true) (h : s.statusView.xx = false) :
    needXx s = .raise .reservedInstruction := by simp [needXx, hu, h]

theorem needNotInSlot_ok {s : State} (h : s.inSlot = false) : needNotInSlot s = .ok () := by simp [needNotInSlot, h]

end Sys2Proof.Machine
end

