-- ==== Sys2Proof/Laws/State.lean ====
section
/-! SUPPORT. One lemma per field per update of the state, and of the three ways the machine leaves the program: no later
proof unfolds a record update. -/

namespace Sys2Proof.Machine

/-! ## Record updates -/

@[simp] theorem State.advance_gpr (s : State) : s.advance.gpr = s.gpr := rfl
@[simp] theorem State.advance_pc (s : State) : s.advance.pc = s.npc := rfl
@[simp] theorem State.advance_npc (s : State) : s.advance.npc = s.npc + 4 := rfl
@[simp] theorem State.advance_inSlot (s : State) : s.advance.inSlot = false := rfl
@[simp] theorem State.advance_hi (s : State) : s.advance.hi = s.hi := rfl
@[simp] theorem State.advance_lo (s : State) : s.advance.lo = s.lo := rfl
@[simp] theorem State.advance_hiloBusy (s : State) : s.advance.hiloBusy = s.hiloBusy := rfl
@[simp] theorem State.advance_llbit (s : State) : s.advance.llbit = s.llbit := rfl
@[simp] theorem State.advance_linked (s : State) : s.advance.linked = s.linked := rfl
@[simp] theorem State.advance_fpr (s : State) : s.advance.fpr = s.fpr := rfl
@[simp] theorem State.advance_fprTag (s : State) : s.advance.fprTag = s.fprTag := rfl
@[simp] theorem State.advance_fsr (s : State) : s.advance.fsr = s.fsr := rfl
@[simp] theorem State.advance_fccBusy (s : State) : s.advance.fccBusy = 0 := rfl
@[simp] theorem State.advance_cp0 (s : State) : s.advance.cp0 = s.cp0 := rfl
@[simp] theorem State.advance_tlb (s : State) : s.advance.tlb = s.tlb := rfl
@[simp] theorem State.advance_icache (s : State) : s.advance.icache = s.icache := rfl
@[simp] theorem State.advance_dcache (s : State) : s.advance.dcache = s.dcache := rfl
@[simp] theorem State.advance_dcacheWritten (s : State) : s.advance.dcacheWritten = s.dcacheWritten := rfl
@[simp] theorem State.advance_scache (s : State) : s.advance.scache = s.scache := rfl
@[simp] theorem State.advance_physMap (s : State) : s.advance.physMap = s.physMap := rfl
@[simp] theorem State.advance_mem (s : State) : s.advance.mem = s.mem := rfl
@[simp] theorem State.advance_byteOrder (s : State) : s.advance.byteOrder = s.byteOrder := rfl
@[simp] theorem State.advance_fpiSeen (s : State) : s.advance.fpiSeen = s.fpiSeen := rfl
@[simp] theorem State.advance_vciPending (s : State) : s.advance.vciPending = s.vciPending := rfl
@[simp] theorem State.advance_nmiPending (s : State) : s.advance.nmiPending = s.nmiPending := rfl
@[simp] theorem State.advance_inputs (s : State) : s.advance.inputs = s.inputs := rfl
@[simp] theorem State.advance_hazards (s : State) : s.advance.hazards = s.hazards := rfl
@[simp] theorem State.advance_late (s : State) : s.advance.late = s.late := rfl
@[simp] theorem State.advance_draws (s : State) : s.advance.draws = s.draws := rfl

@[simp] theorem State.branchTo_gpr (s : State) (a : Word) : (s.branchTo a).gpr = s.gpr := rfl
@[simp] theorem State.branchTo_pc (s : State) (a : Word) : (s.branchTo a).pc = s.npc := rfl
@[simp] theorem State.branchTo_npc (s : State) (a : Word) : (s.branchTo a).npc = a := rfl
@[simp] theorem State.branchTo_inSlot (s : State) (a : Word) : (s.branchTo a).inSlot = true := rfl
@[simp] theorem State.branchTo_hi (s : State) (a : Word) : (s.branchTo a).hi = s.hi := rfl
@[simp] theorem State.branchTo_lo (s : State) (a : Word) : (s.branchTo a).lo = s.lo := rfl
@[simp] theorem State.branchTo_hiloBusy (s : State) (a : Word) : (s.branchTo a).hiloBusy = s.hiloBusy := rfl
@[simp] theorem State.branchTo_llbit (s : State) (a : Word) : (s.branchTo a).llbit = s.llbit := rfl
@[simp] theorem State.branchTo_linked (s : State) (a : Word) : (s.branchTo a).linked = s.linked := rfl
@[simp] theorem State.branchTo_fpr (s : State) (a : Word) : (s.branchTo a).fpr = s.fpr := rfl
@[simp] theorem State.branchTo_fprTag (s : State) (a : Word) : (s.branchTo a).fprTag = s.fprTag := rfl
@[simp] theorem State.branchTo_fsr (s : State) (a : Word) : (s.branchTo a).fsr = s.fsr := rfl
@[simp] theorem State.branchTo_fccBusy (s : State) (a : Word) : (s.branchTo a).fccBusy = 0 := rfl
@[simp] theorem State.branchTo_cp0 (s : State) (a : Word) : (s.branchTo a).cp0 = s.cp0 := rfl
@[simp] theorem State.branchTo_tlb (s : State) (a : Word) : (s.branchTo a).tlb = s.tlb := rfl
@[simp] theorem State.branchTo_icache (s : State) (a : Word) : (s.branchTo a).icache = s.icache := rfl
@[simp] theorem State.branchTo_dcache (s : State) (a : Word) : (s.branchTo a).dcache = s.dcache := rfl
@[simp] theorem State.branchTo_dcacheWritten (s : State) (a : Word) : (s.branchTo a).dcacheWritten = s.dcacheWritten := rfl
@[simp] theorem State.branchTo_scache (s : State) (a : Word) : (s.branchTo a).scache = s.scache := rfl
@[simp] theorem State.branchTo_physMap (s : State) (a : Word) : (s.branchTo a).physMap = s.physMap := rfl
@[simp] theorem State.branchTo_mem (s : State) (a : Word) : (s.branchTo a).mem = s.mem := rfl
@[simp] theorem State.branchTo_byteOrder (s : State) (a : Word) : (s.branchTo a).byteOrder = s.byteOrder := rfl
@[simp] theorem State.branchTo_fpiSeen (s : State) (a : Word) : (s.branchTo a).fpiSeen = s.fpiSeen := rfl
@[simp] theorem State.branchTo_vciPending (s : State) (a : Word) : (s.branchTo a).vciPending = s.vciPending := rfl
@[simp] theorem State.branchTo_nmiPending (s : State) (a : Word) : (s.branchTo a).nmiPending = s.nmiPending := rfl
@[simp] theorem State.branchTo_inputs (s : State) (a : Word) : (s.branchTo a).inputs = s.inputs := rfl
@[simp] theorem State.branchTo_hazards (s : State) (a : Word) : (s.branchTo a).hazards = s.hazards := rfl
@[simp] theorem State.branchTo_late (s : State) (a : Word) : (s.branchTo a).late = s.late := rfl
@[simp] theorem State.branchTo_draws (s : State) (a : Word) : (s.branchTo a).draws = s.draws := rfl

@[simp] theorem State.branchNot_gpr (s : State) : s.branchNot.gpr = s.gpr := rfl
@[simp] theorem State.branchNot_pc (s : State) : s.branchNot.pc = s.npc := rfl
@[simp] theorem State.branchNot_npc (s : State) : s.branchNot.npc = s.npc + 4 := rfl
@[simp] theorem State.branchNot_inSlot (s : State) : s.branchNot.inSlot = true := rfl
@[simp] theorem State.branchNot_hi (s : State) : s.branchNot.hi = s.hi := rfl
@[simp] theorem State.branchNot_lo (s : State) : s.branchNot.lo = s.lo := rfl
@[simp] theorem State.branchNot_hiloBusy (s : State) : s.branchNot.hiloBusy = s.hiloBusy := rfl
@[simp] theorem State.branchNot_llbit (s : State) : s.branchNot.llbit = s.llbit := rfl
@[simp] theorem State.branchNot_linked (s : State) : s.branchNot.linked = s.linked := rfl
@[simp] theorem State.branchNot_fpr (s : State) : s.branchNot.fpr = s.fpr := rfl
@[simp] theorem State.branchNot_fprTag (s : State) : s.branchNot.fprTag = s.fprTag := rfl
@[simp] theorem State.branchNot_fsr (s : State) : s.branchNot.fsr = s.fsr := rfl
@[simp] theorem State.branchNot_fccBusy (s : State) : s.branchNot.fccBusy = 0 := rfl
@[simp] theorem State.branchNot_cp0 (s : State) : s.branchNot.cp0 = s.cp0 := rfl
@[simp] theorem State.branchNot_tlb (s : State) : s.branchNot.tlb = s.tlb := rfl
@[simp] theorem State.branchNot_icache (s : State) : s.branchNot.icache = s.icache := rfl
@[simp] theorem State.branchNot_dcache (s : State) : s.branchNot.dcache = s.dcache := rfl
@[simp] theorem State.branchNot_dcacheWritten (s : State) : s.branchNot.dcacheWritten = s.dcacheWritten := rfl
@[simp] theorem State.branchNot_scache (s : State) : s.branchNot.scache = s.scache := rfl
@[simp] theorem State.branchNot_physMap (s : State) : s.branchNot.physMap = s.physMap := rfl
@[simp] theorem State.branchNot_mem (s : State) : s.branchNot.mem = s.mem := rfl
@[simp] theorem State.branchNot_byteOrder (s : State) : s.branchNot.byteOrder = s.byteOrder := rfl
@[simp] theorem State.branchNot_fpiSeen (s : State) : s.branchNot.fpiSeen = s.fpiSeen := rfl
@[simp] theorem State.branchNot_vciPending (s : State) : s.branchNot.vciPending = s.vciPending := rfl
@[simp] theorem State.branchNot_nmiPending (s : State) : s.branchNot.nmiPending = s.nmiPending := rfl
@[simp] theorem State.branchNot_inputs (s : State) : s.branchNot.inputs = s.inputs := rfl
@[simp] theorem State.branchNot_hazards (s : State) : s.branchNot.hazards = s.hazards := rfl
@[simp] theorem State.branchNot_late (s : State) : s.branchNot.late = s.late := rfl
@[simp] theorem State.branchNot_draws (s : State) : s.branchNot.draws = s.draws := rfl

@[simp] theorem State.skipSlot_gpr (s : State) : s.skipSlot.gpr = s.gpr := rfl
@[simp] theorem State.skipSlot_pc (s : State) : s.skipSlot.pc = s.npc + 4 := rfl
@[simp] theorem State.skipSlot_npc (s : State) : s.skipSlot.npc = s.npc + 8 := rfl
@[simp] theorem State.skipSlot_inSlot (s : State) : s.skipSlot.inSlot = false := rfl
@[simp] theorem State.skipSlot_hi (s : State) : s.skipSlot.hi = s.hi := rfl
@[simp] theorem State.skipSlot_lo (s : State) : s.skipSlot.lo = s.lo := rfl
@[simp] theorem State.skipSlot_hiloBusy (s : State) : s.skipSlot.hiloBusy = s.hiloBusy := rfl
@[simp] theorem State.skipSlot_llbit (s : State) : s.skipSlot.llbit = s.llbit := rfl
@[simp] theorem State.skipSlot_linked (s : State) : s.skipSlot.linked = s.linked := rfl
@[simp] theorem State.skipSlot_fpr (s : State) : s.skipSlot.fpr = s.fpr := rfl
@[simp] theorem State.skipSlot_fprTag (s : State) : s.skipSlot.fprTag = s.fprTag := rfl
@[simp] theorem State.skipSlot_fsr (s : State) : s.skipSlot.fsr = s.fsr := rfl
@[simp] theorem State.skipSlot_fccBusy (s : State) : s.skipSlot.fccBusy = 0 := rfl
@[simp] theorem State.skipSlot_cp0 (s : State) : s.skipSlot.cp0 = s.cp0 := rfl
@[simp] theorem State.skipSlot_tlb (s : State) : s.skipSlot.tlb = s.tlb := rfl
@[simp] theorem State.skipSlot_icache (s : State) : s.skipSlot.icache = s.icache := rfl
@[simp] theorem State.skipSlot_dcache (s : State) : s.skipSlot.dcache = s.dcache := rfl
@[simp] theorem State.skipSlot_dcacheWritten (s : State) : s.skipSlot.dcacheWritten = s.dcacheWritten := rfl
@[simp] theorem State.skipSlot_scache (s : State) : s.skipSlot.scache = s.scache := rfl
@[simp] theorem State.skipSlot_physMap (s : State) : s.skipSlot.physMap = s.physMap := rfl
@[simp] theorem State.skipSlot_mem (s : State) : s.skipSlot.mem = s.mem := rfl
@[simp] theorem State.skipSlot_byteOrder (s : State) : s.skipSlot.byteOrder = s.byteOrder := rfl
@[simp] theorem State.skipSlot_fpiSeen (s : State) : s.skipSlot.fpiSeen = s.fpiSeen := rfl
@[simp] theorem State.skipSlot_vciPending (s : State) : s.skipSlot.vciPending = s.vciPending := rfl
@[simp] theorem State.skipSlot_nmiPending (s : State) : s.skipSlot.nmiPending = s.nmiPending := rfl
@[simp] theorem State.skipSlot_inputs (s : State) : s.skipSlot.inputs = s.inputs := rfl
@[simp] theorem State.skipSlot_hazards (s : State) : s.skipSlot.hazards = s.hazards := rfl
@[simp] theorem State.skipSlot_late (s : State) : s.skipSlot.late = s.late := rfl
@[simp] theorem State.skipSlot_draws (s : State) : s.skipSlot.draws = s.draws := rfl

@[simp] theorem State.goTo_gpr (s : State) (a : Word) : (s.goTo a).gpr = s.gpr := rfl
@[simp] theorem State.goTo_pc (s : State) (a : Word) : (s.goTo a).pc = a := rfl
@[simp] theorem State.goTo_npc (s : State) (a : Word) : (s.goTo a).npc = a + 4 := rfl
@[simp] theorem State.goTo_inSlot (s : State) (a : Word) : (s.goTo a).inSlot = false := rfl
@[simp] theorem State.goTo_hi (s : State) (a : Word) : (s.goTo a).hi = s.hi := rfl
@[simp] theorem State.goTo_lo (s : State) (a : Word) : (s.goTo a).lo = s.lo := rfl
@[simp] theorem State.goTo_hiloBusy (s : State) (a : Word) : (s.goTo a).hiloBusy = s.hiloBusy := rfl
@[simp] theorem State.goTo_llbit (s : State) (a : Word) : (s.goTo a).llbit = s.llbit := rfl
@[simp] theorem State.goTo_linked (s : State) (a : Word) : (s.goTo a).linked = s.linked := rfl
@[simp] theorem State.goTo_fpr (s : State) (a : Word) : (s.goTo a).fpr = s.fpr := rfl
@[simp] theorem State.goTo_fprTag (s : State) (a : Word) : (s.goTo a).fprTag = s.fprTag := rfl
@[simp] theorem State.goTo_fsr (s : State) (a : Word) : (s.goTo a).fsr = s.fsr := rfl
@[simp] theorem State.goTo_fccBusy (s : State) (a : Word) : (s.goTo a).fccBusy = s.fccBusy := rfl
@[simp] theorem State.goTo_cp0 (s : State) (a : Word) : (s.goTo a).cp0 = s.cp0 := rfl
@[simp] theorem State.goTo_tlb (s : State) (a : Word) : (s.goTo a).tlb = s.tlb := rfl
@[simp] theorem State.goTo_icache (s : State) (a : Word) : (s.goTo a).icache = s.icache := rfl
@[simp] theorem State.goTo_dcache (s : State) (a : Word) : (s.goTo a).dcache = s.dcache := rfl
@[simp] theorem State.goTo_dcacheWritten (s : State) (a : Word) : (s.goTo a).dcacheWritten = s.dcacheWritten := rfl
@[simp] theorem State.goTo_scache (s : State) (a : Word) : (s.goTo a).scache = s.scache := rfl
@[simp] theorem State.goTo_physMap (s : State) (a : Word) : (s.goTo a).physMap = s.physMap := rfl
@[simp] theorem State.goTo_mem (s : State) (a : Word) : (s.goTo a).mem = s.mem := rfl
@[simp] theorem State.goTo_byteOrder (s : State) (a : Word) : (s.goTo a).byteOrder = s.byteOrder := rfl
@[simp] theorem State.goTo_fpiSeen (s : State) (a : Word) : (s.goTo a).fpiSeen = s.fpiSeen := rfl
@[simp] theorem State.goTo_vciPending (s : State) (a : Word) : (s.goTo a).vciPending = s.vciPending := rfl
@[simp] theorem State.goTo_nmiPending (s : State) (a : Word) : (s.goTo a).nmiPending = s.nmiPending := rfl
@[simp] theorem State.goTo_inputs (s : State) (a : Word) : (s.goTo a).inputs = s.inputs := rfl
@[simp] theorem State.goTo_hazards (s : State) (a : Word) : (s.goTo a).hazards = s.hazards := rfl
@[simp] theorem State.goTo_late (s : State) (a : Word) : (s.goTo a).late = s.late := rfl
@[simp] theorem State.goTo_draws (s : State) (a : Word) : (s.goTo a).draws = s.draws := rfl

@[simp] theorem State.draw_gpr (s : State) : s.draw.gpr = s.gpr := rfl
@[simp] theorem State.draw_pc (s : State) : s.draw.pc = s.pc := rfl
@[simp] theorem State.draw_npc (s : State) : s.draw.npc = s.npc := rfl
@[simp] theorem State.draw_inSlot (s : State) : s.draw.inSlot = s.inSlot := rfl
@[simp] theorem State.draw_hi (s : State) : s.draw.hi = s.hi := rfl
@[simp] theorem State.draw_lo (s : State) : s.draw.lo = s.lo := rfl
@[simp] theorem State.draw_hiloBusy (s : State) : s.draw.hiloBusy = s.hiloBusy := rfl
@[simp] theorem State.draw_llbit (s : State) : s.draw.llbit = s.llbit := rfl
@[simp] theorem State.draw_linked (s : State) : s.draw.linked = s.linked := rfl
@[simp] theorem State.draw_fpr (s : State) : s.draw.fpr = s.fpr := rfl
@[simp] theorem State.draw_fprTag (s : State) : s.draw.fprTag = s.fprTag := rfl
@[simp] theorem State.draw_fsr (s : State) : s.draw.fsr = s.fsr := rfl
@[simp] theorem State.draw_fccBusy (s : State) : s.draw.fccBusy = s.fccBusy := rfl
@[simp] theorem State.draw_cp0 (s : State) : s.draw.cp0 = s.cp0 := rfl
@[simp] theorem State.draw_tlb (s : State) : s.draw.tlb = s.tlb := rfl
@[simp] theorem State.draw_icache (s : State) : s.draw.icache = s.icache := rfl
@[simp] theorem State.draw_dcache (s : State) : s.draw.dcache = s.dcache := rfl
@[simp] theorem State.draw_dcacheWritten (s : State) : s.draw.dcacheWritten = s.dcacheWritten := rfl
@[simp] theorem State.draw_scache (s : State) : s.draw.scache = s.scache := rfl
@[simp] theorem State.draw_physMap (s : State) : s.draw.physMap = s.physMap := rfl
@[simp] theorem State.draw_mem (s : State) : s.draw.mem = s.mem := rfl
@[simp] theorem State.draw_byteOrder (s : State) : s.draw.byteOrder = s.byteOrder := rfl
@[simp] theorem State.draw_fpiSeen (s : State) : s.draw.fpiSeen = s.fpiSeen := rfl
@[simp] theorem State.draw_vciPending (s : State) : s.draw.vciPending = s.vciPending := rfl
@[simp] theorem State.draw_nmiPending (s : State) : s.draw.nmiPending = s.nmiPending := rfl
@[simp] theorem State.draw_inputs (s : State) : s.draw.inputs = s.inputs := rfl
@[simp] theorem State.draw_hazards (s : State) : s.draw.hazards = s.hazards := rfl
@[simp] theorem State.draw_late (s : State) : s.draw.late = s.late := rfl
@[simp] theorem State.draw_draws (s : State) : s.draw.draws = s.draws + 1 := rfl

@[simp] theorem State.setDline_gpr (s : State) (k : Nat) (l : DCacheLine) : (s.setDline k l).gpr = s.gpr := rfl
@[simp] theorem State.setDline_pc (s : State) (k : Nat) (l : DCacheLine) : (s.setDline k l).pc = s.pc := rfl
@[simp] theorem State.setDline_npc (s : State) (k : Nat) (l : DCacheLine) : (s.setDline k l).npc = s.npc := rfl
@[simp] theorem State.setDline_inSlot (s : State) (k : Nat) (l : DCacheLine) : (s.setDline k l).inSlot = s.inSlot := rfl
@[simp] theorem State.setDline_hi (s : State) (k : Nat) (l : DCacheLine) : (s.setDline k l).hi = s.hi := rfl
@[simp] theorem State.setDline_lo (s : State) (k : Nat) (l : DCacheLine) : (s.setDline k l).lo = s.lo := rfl
@[simp] theorem State.setDline_hiloBusy (s : State) (k : Nat) (l : DCacheLine) : (s.setDline k l).hiloBusy = s.hiloBusy := rfl
@[simp] theorem State.setDline_llbit (s : State) (k : Nat) (l : DCacheLine) : (s.setDline k l).llbit = s.llbit := rfl
@[simp] theorem State.setDline_linked (s : State) (k : Nat) (l : DCacheLine) : (s.setDline k l).linked = s.linked := rfl
@[simp] theorem State.setDline_fpr (s : State) (k : Nat) (l : DCacheLine) : (s.setDline k l).fpr = s.fpr := rfl
@[simp] theorem State.setDline_fprTag (s : State) (k : Nat) (l : DCacheLine) : (s.setDline k l).fprTag = s.fprTag := rfl
@[simp] theorem State.setDline_fsr (s : State) (k : Nat) (l : DCacheLine) : (s.setDline k l).fsr = s.fsr := rfl
@[simp] theorem State.setDline_fccBusy (s : State) (k : Nat) (l : DCacheLine) : (s.setDline k l).fccBusy = s.fccBusy := rfl
@[simp] theorem State.setDline_cp0 (s : State) (k : Nat) (l : DCacheLine) : (s.setDline k l).cp0 = s.cp0 := rfl
@[simp] theorem State.setDline_tlb (s : State) (k : Nat) (l : DCacheLine) : (s.setDline k l).tlb = s.tlb := rfl
@[simp] theorem State.setDline_icache (s : State) (k : Nat) (l : DCacheLine) : (s.setDline k l).icache = s.icache := rfl
@[simp] theorem State.setDline_dcache (s : State) (k : Nat) (l : DCacheLine) : (s.setDline k l).dcache = CMap.set dcacheEmpty s.dcache k l := rfl
@[simp] theorem State.setDline_dcacheWritten (s : State) (k : Nat) (l : DCacheLine) : (s.setDline k l).dcacheWritten = s.dcacheWritten := rfl
@[simp] theorem State.setDline_scache (s : State) (k : Nat) (l : DCacheLine) : (s.setDline k l).scache = s.scache := rfl
@[simp] theorem State.setDline_physMap (s : State) (k : Nat) (l : DCacheLine) : (s.setDline k l).physMap = s.physMap := rfl
@[simp] theorem State.setDline_mem (s : State) (k : Nat) (l : DCacheLine) : (s.setDline k l).mem = s.mem := rfl
@[simp] theorem State.setDline_byteOrder (s : State) (k : Nat) (l : DCacheLine) : (s.setDline k l).byteOrder = s.byteOrder := rfl
@[simp] theorem State.setDline_fpiSeen (s : State) (k : Nat) (l : DCacheLine) : (s.setDline k l).fpiSeen = s.fpiSeen := rfl
@[simp] theorem State.setDline_vciPending (s : State) (k : Nat) (l : DCacheLine) : (s.setDline k l).vciPending = s.vciPending := rfl
@[simp] theorem State.setDline_nmiPending (s : State) (k : Nat) (l : DCacheLine) : (s.setDline k l).nmiPending = s.nmiPending := rfl
@[simp] theorem State.setDline_inputs (s : State) (k : Nat) (l : DCacheLine) : (s.setDline k l).inputs = s.inputs := rfl
@[simp] theorem State.setDline_hazards (s : State) (k : Nat) (l : DCacheLine) : (s.setDline k l).hazards = s.hazards := rfl
@[simp] theorem State.setDline_late (s : State) (k : Nat) (l : DCacheLine) : (s.setDline k l).late = s.late := rfl
@[simp] theorem State.setDline_draws (s : State) (k : Nat) (l : DCacheLine) : (s.setDline k l).draws = s.draws := rfl

@[simp] theorem State.setIline_gpr (s : State) (k : Nat) (l : ICacheLine) : (s.setIline k l).gpr = s.gpr := rfl
@[simp] theorem State.setIline_pc (s : State) (k : Nat) (l : ICacheLine) : (s.setIline k l).pc = s.pc := rfl
@[simp] theorem State.setIline_npc (s : State) (k : Nat) (l : ICacheLine) : (s.setIline k l).npc = s.npc := rfl
@[simp] theorem State.setIline_inSlot (s : State) (k : Nat) (l : ICacheLine) : (s.setIline k l).inSlot = s.inSlot := rfl
@[simp] theorem State.setIline_hi (s : State) (k : Nat) (l : ICacheLine) : (s.setIline k l).hi = s.hi := rfl
@[simp] theorem State.setIline_lo (s : State) (k : Nat) (l : ICacheLine) : (s.setIline k l).lo = s.lo := rfl
@[simp] theorem State.setIline_hiloBusy (s : State) (k : Nat) (l : ICacheLine) : (s.setIline k l).hiloBusy = s.hiloBusy := rfl
@[simp] theorem State.setIline_llbit (s : State) (k : Nat) (l : ICacheLine) : (s.setIline k l).llbit = s.llbit := rfl
@[simp] theorem State.setIline_linked (s : State) (k : Nat) (l : ICacheLine) : (s.setIline k l).linked = s.linked := rfl
@[simp] theorem State.setIline_fpr (s : State) (k : Nat) (l : ICacheLine) : (s.setIline k l).fpr = s.fpr := rfl
@[simp] theorem State.setIline_fprTag (s : State) (k : Nat) (l : ICacheLine) : (s.setIline k l).fprTag = s.fprTag := rfl
@[simp] theorem State.setIline_fsr (s : State) (k : Nat) (l : ICacheLine) : (s.setIline k l).fsr = s.fsr := rfl
@[simp] theorem State.setIline_fccBusy (s : State) (k : Nat) (l : ICacheLine) : (s.setIline k l).fccBusy = s.fccBusy := rfl
@[simp] theorem State.setIline_cp0 (s : State) (k : Nat) (l : ICacheLine) : (s.setIline k l).cp0 = s.cp0 := rfl
@[simp] theorem State.setIline_tlb (s : State) (k : Nat) (l : ICacheLine) : (s.setIline k l).tlb = s.tlb := rfl
@[simp] theorem State.setIline_icache (s : State) (k : Nat) (l : ICacheLine) : (s.setIline k l).icache = CMap.set icacheEmpty s.icache k l := rfl
@[simp] theorem State.setIline_dcache (s : State) (k : Nat) (l : ICacheLine) : (s.setIline k l).dcache = s.dcache := rfl
@[simp] theorem State.setIline_dcacheWritten (s : State) (k : Nat) (l : ICacheLine) : (s.setIline k l).dcacheWritten = s.dcacheWritten := rfl
@[simp] theorem State.setIline_scache (s : State) (k : Nat) (l : ICacheLine) : (s.setIline k l).scache = s.scache := rfl
@[simp] theorem State.setIline_physMap (s : State) (k : Nat) (l : ICacheLine) : (s.setIline k l).physMap = s.physMap := rfl
@[simp] theorem State.setIline_mem (s : State) (k : Nat) (l : ICacheLine) : (s.setIline k l).mem = s.mem := rfl
@[simp] theorem State.setIline_byteOrder (s : State) (k : Nat) (l : ICacheLine) : (s.setIline k l).byteOrder = s.byteOrder := rfl
@[simp] theorem State.setIline_fpiSeen (s : State) (k : Nat) (l : ICacheLine) : (s.setIline k l).fpiSeen = s.fpiSeen := rfl
@[simp] theorem State.setIline_vciPending (s : State) (k : Nat) (l : ICacheLine) : (s.setIline k l).vciPending = s.vciPending := rfl
@[simp] theorem State.setIline_nmiPending (s : State) (k : Nat) (l : ICacheLine) : (s.setIline k l).nmiPending = s.nmiPending := rfl
@[simp] theorem State.setIline_inputs (s : State) (k : Nat) (l : ICacheLine) : (s.setIline k l).inputs = s.inputs := rfl
@[simp] theorem State.setIline_hazards (s : State) (k : Nat) (l : ICacheLine) : (s.setIline k l).hazards = s.hazards := rfl
@[simp] theorem State.setIline_late (s : State) (k : Nat) (l : ICacheLine) : (s.setIline k l).late = s.late := rfl
@[simp] theorem State.setIline_draws (s : State) (k : Nat) (l : ICacheLine) : (s.setIline k l).draws = s.draws := rfl

@[simp] theorem State.setSynonym_gpr (s : State) (pa : PAddr) (vs : BitVec 4) : (s.setSynonym pa vs).gpr = s.gpr := rfl
@[simp] theorem State.setSynonym_pc (s : State) (pa : PAddr) (vs : BitVec 4) : (s.setSynonym pa vs).pc = s.pc := rfl
@[simp] theorem State.setSynonym_npc (s : State) (pa : PAddr) (vs : BitVec 4) : (s.setSynonym pa vs).npc = s.npc := rfl
@[simp] theorem State.setSynonym_inSlot (s : State) (pa : PAddr) (vs : BitVec 4) : (s.setSynonym pa vs).inSlot = s.inSlot := rfl
@[simp] theorem State.setSynonym_hi (s : State) (pa : PAddr) (vs : BitVec 4) : (s.setSynonym pa vs).hi = s.hi := rfl
@[simp] theorem State.setSynonym_lo (s : State) (pa : PAddr) (vs : BitVec 4) : (s.setSynonym pa vs).lo = s.lo := rfl
@[simp] theorem State.setSynonym_hiloBusy (s : State) (pa : PAddr) (vs : BitVec 4) : (s.setSynonym pa vs).hiloBusy = s.hiloBusy := rfl
@[simp] theorem State.setSynonym_llbit (s : State) (pa : PAddr) (vs : BitVec 4) : (s.setSynonym pa vs).llbit = s.llbit := rfl
@[simp] theorem State.setSynonym_linked (s : State) (pa : PAddr) (vs : BitVec 4) : (s.setSynonym pa vs).linked = s.linked := rfl
@[simp] theorem State.setSynonym_fpr (s : State) (pa : PAddr) (vs : BitVec 4) : (s.setSynonym pa vs).fpr = s.fpr := rfl
@[simp] theorem State.setSynonym_fprTag (s : State) (pa : PAddr) (vs : BitVec 4) : (s.setSynonym pa vs).fprTag = s.fprTag := rfl
@[simp] theorem State.setSynonym_fsr (s : State) (pa : PAddr) (vs : BitVec 4) : (s.setSynonym pa vs).fsr = s.fsr := rfl
@[simp] theorem State.setSynonym_fccBusy (s : State) (pa : PAddr) (vs : BitVec 4) : (s.setSynonym pa vs).fccBusy = s.fccBusy := rfl
@[simp] theorem State.setSynonym_cp0 (s : State) (pa : PAddr) (vs : BitVec 4) : (s.setSynonym pa vs).cp0 = s.cp0 := rfl
@[simp] theorem State.setSynonym_tlb (s : State) (pa : PAddr) (vs : BitVec 4) : (s.setSynonym pa vs).tlb = s.tlb := rfl
@[simp] theorem State.setSynonym_icache (s : State) (pa : PAddr) (vs : BitVec 4) : (s.setSynonym pa vs).icache = s.icache := rfl
@[simp] theorem State.setSynonym_dcache (s : State) (pa : PAddr) (vs : BitVec 4) : (s.setSynonym pa vs).dcache = s.dcache := rfl
@[simp] theorem State.setSynonym_dcacheWritten (s : State) (pa : PAddr) (vs : BitVec 4) : (s.setSynonym pa vs).dcacheWritten = s.dcacheWritten := rfl
@[simp] theorem State.setSynonym_scache (s : State) (pa : PAddr) (vs : BitVec 4) : (s.setSynonym pa vs).scache = CMap.set scacheEmpty s.scache (sectorOf pa) (some vs) := rfl
@[simp] theorem State.setSynonym_physMap (s : State) (pa : PAddr) (vs : BitVec 4) : (s.setSynonym pa vs).physMap = s.physMap := rfl
@[simp] theorem State.setSynonym_mem (s : State) (pa : PAddr) (vs : BitVec 4) : (s.setSynonym pa vs).mem = s.mem := rfl
@[simp] theorem State.setSynonym_byteOrder (s : State) (pa : PAddr) (vs : BitVec 4) : (s.setSynonym pa vs).byteOrder = s.byteOrder := rfl
@[simp] theorem State.setSynonym_fpiSeen (s : State) (pa : PAddr) (vs : BitVec 4) : (s.setSynonym pa vs).fpiSeen = s.fpiSeen := rfl
@[simp] theorem State.setSynonym_vciPending (s : State) (pa : PAddr) (vs : BitVec 4) : (s.setSynonym pa vs).vciPending = s.vciPending := rfl
@[simp] theorem State.setSynonym_nmiPending (s : State) (pa : PAddr) (vs : BitVec 4) : (s.setSynonym pa vs).nmiPending = s.nmiPending := rfl
@[simp] theorem State.setSynonym_inputs (s : State) (pa : PAddr) (vs : BitVec 4) : (s.setSynonym pa vs).inputs = s.inputs := rfl
@[simp] theorem State.setSynonym_hazards (s : State) (pa : PAddr) (vs : BitVec 4) : (s.setSynonym pa vs).hazards = s.hazards := rfl
@[simp] theorem State.setSynonym_late (s : State) (pa : PAddr) (vs : BitVec 4) : (s.setSynonym pa vs).late = s.late := rfl
@[simp] theorem State.setSynonym_draws (s : State) (pa : PAddr) (vs : BitVec 4) : (s.setSynonym pa vs).draws = s.draws := rfl

@[simp] theorem State.setTlbEntry_gpr (s : State) (i : BitVec 7) (w : BitVec 2) (e : TlbEntry) : (s.setTlbEntry i w e).gpr = s.gpr := rfl
@[simp] theorem State.setTlbEntry_pc (s : State) (i : BitVec 7) (w : BitVec 2) (e : TlbEntry) : (s.setTlbEntry i w e).pc = s.pc := rfl
@[simp] theorem State.setTlbEntry_npc (s : State) (i : BitVec 7) (w : BitVec 2) (e : TlbEntry) : (s.setTlbEntry i w e).npc = s.npc := rfl
@[simp] theorem State.setTlbEntry_inSlot (s : State) (i : BitVec 7) (w : BitVec 2) (e : TlbEntry) : (s.setTlbEntry i w e).inSlot = s.inSlot := rfl
@[simp] theorem State.setTlbEntry_hi (s : State) (i : BitVec 7) (w : BitVec 2) (e : TlbEntry) : (s.setTlbEntry i w e).hi = s.hi := rfl
@[simp] theorem State.setTlbEntry_lo (s : State) (i : BitVec 7) (w : BitVec 2) (e : TlbEntry) : (s.setTlbEntry i w e).lo = s.lo := rfl
@[simp] theorem State.setTlbEntry_hiloBusy (s : State) (i : BitVec 7) (w : BitVec 2) (e : TlbEntry) : (s.setTlbEntry i w e).hiloBusy = s.hiloBusy := rfl
@[simp] theorem State.setTlbEntry_llbit (s : State) (i : BitVec 7) (w : BitVec 2) (e : TlbEntry) : (s.setTlbEntry i w e).llbit = s.llbit := rfl
@[simp] theorem State.setTlbEntry_linked (s : State) (i : BitVec 7) (w : BitVec 2) (e : TlbEntry) : (s.setTlbEntry i w e).linked = s.linked := rfl
@[simp] theorem State.setTlbEntry_fpr (s : State) (i : BitVec 7) (w : BitVec 2) (e : TlbEntry) : (s.setTlbEntry i w e).fpr = s.fpr := rfl
@[simp] theorem State.setTlbEntry_fprTag (s : State) (i : BitVec 7) (w : BitVec 2) (e : TlbEntry) : (s.setTlbEntry i w e).fprTag = s.fprTag := rfl
@[simp] theorem State.setTlbEntry_fsr (s : State) (i : BitVec 7) (w : BitVec 2) (e : TlbEntry) : (s.setTlbEntry i w e).fsr = s.fsr := rfl
@[simp] theorem State.setTlbEntry_fccBusy (s : State) (i : BitVec 7) (w : BitVec 2) (e : TlbEntry) : (s.setTlbEntry i w e).fccBusy = s.fccBusy := rfl
@[simp] theorem State.setTlbEntry_cp0 (s : State) (i : BitVec 7) (w : BitVec 2) (e : TlbEntry) : (s.setTlbEntry i w e).cp0 = s.cp0 := rfl
@[simp] theorem State.setTlbEntry_tlb (s : State) (i : BitVec 7) (w : BitVec 2) (e : TlbEntry) : (s.setTlbEntry i w e).tlb = CMap.set tlbUnwritten s.tlb (tlbKey i w) e := rfl
@[simp] theorem State.setTlbEntry_icache (s : State) (i : BitVec 7) (w : BitVec 2) (e : TlbEntry) : (s.setTlbEntry i w e).icache = s.icache := rfl
@[simp] theorem State.setTlbEntry_dcache (s : State) (i : BitVec 7) (w : BitVec 2) (e : TlbEntry) : (s.setTlbEntry i w e).dcache = s.dcache := rfl
@[simp] theorem State.setTlbEntry_dcacheWritten (s : State) (i : BitVec 7) (w : BitVec 2) (e : TlbEntry) : (s.setTlbEntry i w e).dcacheWritten = s.dcacheWritten := rfl
@[simp] theorem State.setTlbEntry_scache (s : State) (i : BitVec 7) (w : BitVec 2) (e : TlbEntry) : (s.setTlbEntry i w e).scache = s.scache := rfl
@[simp] theorem State.setTlbEntry_physMap (s : State) (i : BitVec 7) (w : BitVec 2) (e : TlbEntry) : (s.setTlbEntry i w e).physMap = s.physMap := rfl
@[simp] theorem State.setTlbEntry_mem (s : State) (i : BitVec 7) (w : BitVec 2) (e : TlbEntry) : (s.setTlbEntry i w e).mem = s.mem := rfl
@[simp] theorem State.setTlbEntry_byteOrder (s : State) (i : BitVec 7) (w : BitVec 2) (e : TlbEntry) : (s.setTlbEntry i w e).byteOrder = s.byteOrder := rfl
@[simp] theorem State.setTlbEntry_fpiSeen (s : State) (i : BitVec 7) (w : BitVec 2) (e : TlbEntry) : (s.setTlbEntry i w e).fpiSeen = s.fpiSeen := rfl
@[simp] theorem State.setTlbEntry_vciPending (s : State) (i : BitVec 7) (w : BitVec 2) (e : TlbEntry) : (s.setTlbEntry i w e).vciPending = s.vciPending := rfl
@[simp] theorem State.setTlbEntry_nmiPending (s : State) (i : BitVec 7) (w : BitVec 2) (e : TlbEntry) : (s.setTlbEntry i w e).nmiPending = s.nmiPending := rfl
@[simp] theorem State.setTlbEntry_inputs (s : State) (i : BitVec 7) (w : BitVec 2) (e : TlbEntry) : (s.setTlbEntry i w e).inputs = s.inputs := rfl
@[simp] theorem State.setTlbEntry_hazards (s : State) (i : BitVec 7) (w : BitVec 2) (e : TlbEntry) : (s.setTlbEntry i w e).hazards = s.hazards := rfl
@[simp] theorem State.setTlbEntry_late (s : State) (i : BitVec 7) (w : BitVec 2) (e : TlbEntry) : (s.setTlbEntry i w e).late = s.late := rfl
@[simp] theorem State.setTlbEntry_draws (s : State) (i : BitVec 7) (w : BitVec 2) (e : TlbEntry) : (s.setTlbEntry i w e).draws = s.draws := rfl

@[simp] theorem State.setFprFile_gpr (s : State) (r : Reg) (v : Word) (g : FprTag) : (s.setFprFile r v g).gpr = s.gpr := rfl
@[simp] theorem State.setFprFile_pc (s : State) (r : Reg) (v : Word) (g : FprTag) : (s.setFprFile r v g).pc = s.pc := rfl
@[simp] theorem State.setFprFile_npc (s : State) (r : Reg) (v : Word) (g : FprTag) : (s.setFprFile r v g).npc = s.npc := rfl
@[simp] theorem State.setFprFile_inSlot (s : State) (r : Reg) (v : Word) (g : FprTag) : (s.setFprFile r v g).inSlot = s.inSlot := rfl
@[simp] theorem State.setFprFile_hi (s : State) (r : Reg) (v : Word) (g : FprTag) : (s.setFprFile r v g).hi = s.hi := rfl
@[simp] theorem State.setFprFile_lo (s : State) (r : Reg) (v : Word) (g : FprTag) : (s.setFprFile r v g).lo = s.lo := rfl
@[simp] theorem State.setFprFile_hiloBusy (s : State) (r : Reg) (v : Word) (g : FprTag) : (s.setFprFile r v g).hiloBusy = s.hiloBusy := rfl
@[simp] theorem State.setFprFile_llbit (s : State) (r : Reg) (v : Word) (g : FprTag) : (s.setFprFile r v g).llbit = s.llbit := rfl
@[simp] theorem State.setFprFile_linked (s : State) (r : Reg) (v : Word) (g : FprTag) : (s.setFprFile r v g).linked = s.linked := rfl
@[simp] theorem State.setFprFile_fpr (s : State) (r : Reg) (v : Word) (g : FprTag) : (s.setFprFile r v g).fpr = s.fpr.set r.toNat v r.isLt := rfl
@[simp] theorem State.setFprFile_fprTag (s : State) (r : Reg) (v : Word) (g : FprTag) : (s.setFprFile r v g).fprTag = s.fprTag.set r.toNat g r.isLt := rfl
@[simp] theorem State.setFprFile_fsr (s : State) (r : Reg) (v : Word) (g : FprTag) : (s.setFprFile r v g).fsr = s.fsr := rfl
@[simp] theorem State.setFprFile_fccBusy (s : State) (r : Reg) (v : Word) (g : FprTag) : (s.setFprFile r v g).fccBusy = s.fccBusy := rfl
@[simp] theorem State.setFprFile_cp0 (s : State) (r : Reg) (v : Word) (g : FprTag) : (s.setFprFile r v g).cp0 = s.cp0 := rfl
@[simp] theorem State.setFprFile_tlb (s : State) (r : Reg) (v : Word) (g : FprTag) : (s.setFprFile r v g).tlb = s.tlb := rfl
@[simp] theorem State.setFprFile_icache (s : State) (r : Reg) (v : Word) (g : FprTag) : (s.setFprFile r v g).icache = s.icache := rfl
@[simp] theorem State.setFprFile_dcache (s : State) (r : Reg) (v : Word) (g : FprTag) : (s.setFprFile r v g).dcache = s.dcache := rfl
@[simp] theorem State.setFprFile_dcacheWritten (s : State) (r : Reg) (v : Word) (g : FprTag) : (s.setFprFile r v g).dcacheWritten = s.dcacheWritten := rfl
@[simp] theorem State.setFprFile_scache (s : State) (r : Reg) (v : Word) (g : FprTag) : (s.setFprFile r v g).scache = s.scache := rfl
@[simp] theorem State.setFprFile_physMap (s : State) (r : Reg) (v : Word) (g : FprTag) : (s.setFprFile r v g).physMap = s.physMap := rfl
@[simp] theorem State.setFprFile_mem (s : State) (r : Reg) (v : Word) (g : FprTag) : (s.setFprFile r v g).mem = s.mem := rfl
@[simp] theorem State.setFprFile_byteOrder (s : State) (r : Reg) (v : Word) (g : FprTag) : (s.setFprFile r v g).byteOrder = s.byteOrder := rfl
@[simp] theorem State.setFprFile_fpiSeen (s : State) (r : Reg) (v : Word) (g : FprTag) : (s.setFprFile r v g).fpiSeen = s.fpiSeen := rfl
@[simp] theorem State.setFprFile_vciPending (s : State) (r : Reg) (v : Word) (g : FprTag) : (s.setFprFile r v g).vciPending = s.vciPending := rfl
@[simp] theorem State.setFprFile_nmiPending (s : State) (r : Reg) (v : Word) (g : FprTag) : (s.setFprFile r v g).nmiPending = s.nmiPending := rfl
@[simp] theorem State.setFprFile_inputs (s : State) (r : Reg) (v : Word) (g : FprTag) : (s.setFprFile r v g).inputs = s.inputs := rfl
@[simp] theorem State.setFprFile_hazards (s : State) (r : Reg) (v : Word) (g : FprTag) : (s.setFprFile r v g).hazards = s.hazards := rfl
@[simp] theorem State.setFprFile_late (s : State) (r : Reg) (v : Word) (g : FprTag) : (s.setFprFile r v g).late = s.late := rfl
@[simp] theorem State.setFprFile_draws (s : State) (r : Reg) (v : Word) (g : FprTag) : (s.setFprFile r v g).draws = s.draws := rfl

@[simp] theorem State.writeMemory_gpr (s : State) (pa : PAddr) (bs : List Byte) : (s.writeMemory pa bs).gpr = s.gpr := rfl
@[simp] theorem State.writeMemory_pc (s : State) (pa : PAddr) (bs : List Byte) : (s.writeMemory pa bs).pc = s.pc := rfl
@[simp] theorem State.writeMemory_npc (s : State) (pa : PAddr) (bs : List Byte) : (s.writeMemory pa bs).npc = s.npc := rfl
@[simp] theorem State.writeMemory_inSlot (s : State) (pa : PAddr) (bs : List Byte) : (s.writeMemory pa bs).inSlot = s.inSlot := rfl
@[simp] theorem State.writeMemory_hi (s : State) (pa : PAddr) (bs : List Byte) : (s.writeMemory pa bs).hi = s.hi := rfl
@[simp] theorem State.writeMemory_lo (s : State) (pa : PAddr) (bs : List Byte) : (s.writeMemory pa bs).lo = s.lo := rfl
@[simp] theorem State.writeMemory_hiloBusy (s : State) (pa : PAddr) (bs : List Byte) : (s.writeMemory pa bs).hiloBusy = s.hiloBusy := rfl
@[simp] theorem State.writeMemory_llbit (s : State) (pa : PAddr) (bs : List Byte) : (s.writeMemory pa bs).llbit = s.llbit := rfl
@[simp] theorem State.writeMemory_linked (s : State) (pa : PAddr) (bs : List Byte) : (s.writeMemory pa bs).linked = s.linked := rfl
@[simp] theorem State.writeMemory_fpr (s : State) (pa : PAddr) (bs : List Byte) : (s.writeMemory pa bs).fpr = s.fpr := rfl
@[simp] theorem State.writeMemory_fprTag (s : State) (pa : PAddr) (bs : List Byte) : (s.writeMemory pa bs).fprTag = s.fprTag := rfl
@[simp] theorem State.writeMemory_fsr (s : State) (pa : PAddr) (bs : List Byte) : (s.writeMemory pa bs).fsr = s.fsr := rfl
@[simp] theorem State.writeMemory_fccBusy (s : State) (pa : PAddr) (bs : List Byte) : (s.writeMemory pa bs).fccBusy = s.fccBusy := rfl
@[simp] theorem State.writeMemory_cp0 (s : State) (pa : PAddr) (bs : List Byte) : (s.writeMemory pa bs).cp0 = s.cp0 := rfl
@[simp] theorem State.writeMemory_tlb (s : State) (pa : PAddr) (bs : List Byte) : (s.writeMemory pa bs).tlb = s.tlb := rfl
@[simp] theorem State.writeMemory_icache (s : State) (pa : PAddr) (bs : List Byte) : (s.writeMemory pa bs).icache = s.icache := rfl
@[simp] theorem State.writeMemory_dcache (s : State) (pa : PAddr) (bs : List Byte) : (s.writeMemory pa bs).dcache = s.dcache := rfl
@[simp] theorem State.writeMemory_dcacheWritten (s : State) (pa : PAddr) (bs : List Byte) : (s.writeMemory pa bs).dcacheWritten = s.dcacheWritten := rfl
@[simp] theorem State.writeMemory_scache (s : State) (pa : PAddr) (bs : List Byte) : (s.writeMemory pa bs).scache = s.scache := rfl
@[simp] theorem State.writeMemory_physMap (s : State) (pa : PAddr) (bs : List Byte) : (s.writeMemory pa bs).physMap = s.physMap := rfl
@[simp] theorem State.writeMemory_mem (s : State) (pa : PAddr) (bs : List Byte) : (s.writeMemory pa bs).mem = Memory.writeList s.ramAt s.mem pa.toNat bs := rfl
@[simp] theorem State.writeMemory_byteOrder (s : State) (pa : PAddr) (bs : List Byte) : (s.writeMemory pa bs).byteOrder = ByteOrder.mark s.ramAt s.byteOrder s.bigEndian pa.toNat bs.length := rfl
@[simp] theorem State.writeMemory_fpiSeen (s : State) (pa : PAddr) (bs : List Byte) : (s.writeMemory pa bs).fpiSeen = s.fpiSeen := rfl
@[simp] theorem State.writeMemory_vciPending (s : State) (pa : PAddr) (bs : List Byte) : (s.writeMemory pa bs).vciPending = s.vciPending := rfl
@[simp] theorem State.writeMemory_nmiPending (s : State) (pa : PAddr) (bs : List Byte) : (s.writeMemory pa bs).nmiPending = s.nmiPending := rfl
@[simp] theorem State.writeMemory_inputs (s : State) (pa : PAddr) (bs : List Byte) : (s.writeMemory pa bs).inputs = s.inputs := rfl
@[simp] theorem State.writeMemory_hazards (s : State) (pa : PAddr) (bs : List Byte) : (s.writeMemory pa bs).hazards = s.hazards := rfl
@[simp] theorem State.writeMemory_late (s : State) (pa : PAddr) (bs : List Byte) : (s.writeMemory pa bs).late = s.late := rfl
@[simp] theorem State.writeMemory_draws (s : State) (pa : PAddr) (bs : List Byte) : (s.writeMemory pa bs).draws = s.draws := rfl

@[simp] theorem State.writeCop0_gpr (s : State) (rd : Reg) (v : Word) : (s.writeCop0 rd v).gpr = s.gpr := rfl
@[simp] theorem State.writeCop0_pc (s : State) (rd : Reg) (v : Word) : (s.writeCop0 rd v).pc = s.pc := rfl
@[simp] theorem State.writeCop0_npc (s : State) (rd : Reg) (v : Word) : (s.writeCop0 rd v).npc = s.npc := rfl
@[simp] theorem State.writeCop0_inSlot (s : State) (rd : Reg) (v : Word) : (s.writeCop0 rd v).inSlot = s.inSlot := rfl
@[simp] theorem State.writeCop0_hi (s : State) (rd : Reg) (v : Word) : (s.writeCop0 rd v).hi = s.hi := rfl
@[simp] theorem State.writeCop0_lo (s : State) (rd : Reg) (v : Word) : (s.writeCop0 rd v).lo = s.lo := rfl
@[simp] theorem State.writeCop0_hiloBusy (s : State) (rd : Reg) (v : Word) : (s.writeCop0 rd v).hiloBusy = s.hiloBusy := rfl
@[simp] theorem State.writeCop0_llbit (s : State) (rd : Reg) (v : Word) : (s.writeCop0 rd v).llbit = s.llbit := rfl
@[simp] theorem State.writeCop0_linked (s : State) (rd : Reg) (v : Word) : (s.writeCop0 rd v).linked = s.linked := rfl
@[simp] theorem State.writeCop0_fpr (s : State) (rd : Reg) (v : Word) : (s.writeCop0 rd v).fpr = s.fpr := rfl
@[simp] theorem State.writeCop0_fprTag (s : State) (rd : Reg) (v : Word) : (s.writeCop0 rd v).fprTag = s.fprTag := rfl
@[simp] theorem State.writeCop0_fsr (s : State) (rd : Reg) (v : Word) : (s.writeCop0 rd v).fsr = s.fsr := rfl
@[simp] theorem State.writeCop0_fccBusy (s : State) (rd : Reg) (v : Word) : (s.writeCop0 rd v).fccBusy = s.fccBusy := rfl
@[simp] theorem State.writeCop0_cp0 (s : State) (rd : Reg) (v : Word) : (s.writeCop0 rd v).cp0 = s.cp0.write rd v := rfl
@[simp] theorem State.writeCop0_tlb (s : State) (rd : Reg) (v : Word) : (s.writeCop0 rd v).tlb = s.tlb := rfl
@[simp] theorem State.writeCop0_icache (s : State) (rd : Reg) (v : Word) : (s.writeCop0 rd v).icache = s.icache := rfl
@[simp] theorem State.writeCop0_dcache (s : State) (rd : Reg) (v : Word) : (s.writeCop0 rd v).dcache = s.dcache := rfl
@[simp] theorem State.writeCop0_dcacheWritten (s : State) (rd : Reg) (v : Word) : (s.writeCop0 rd v).dcacheWritten = s.dcacheWritten := rfl
@[simp] theorem State.writeCop0_scache (s : State) (rd : Reg) (v : Word) : (s.writeCop0 rd v).scache = s.scache := rfl
@[simp] theorem State.writeCop0_physMap (s : State) (rd : Reg) (v : Word) : (s.writeCop0 rd v).physMap = s.physMap := rfl
@[simp] theorem State.writeCop0_mem (s : State) (rd : Reg) (v : Word) : (s.writeCop0 rd v).mem = s.mem := rfl
@[simp] theorem State.writeCop0_byteOrder (s : State) (rd : Reg) (v : Word) : (s.writeCop0 rd v).byteOrder = s.byteOrder := rfl
@[simp] theorem State.writeCop0_fpiSeen (s : State) (rd : Reg) (v : Word) : (s.writeCop0 rd v).fpiSeen = s.fpiSeen := rfl
@[simp] theorem State.writeCop0_vciPending (s : State) (rd : Reg) (v : Word) : (s.writeCop0 rd v).vciPending = s.vciPending := rfl
@[simp] theorem State.writeCop0_nmiPending (s : State) (rd : Reg) (v : Word) : (s.writeCop0 rd v).nmiPending = s.nmiPending := rfl
@[simp] theorem State.writeCop0_inputs (s : State) (rd : Reg) (v : Word) : (s.writeCop0 rd v).inputs = s.inputs := rfl
@[simp] theorem State.writeCop0_hazards (s : State) (rd : Reg) (v : Word) : (s.writeCop0 rd v).hazards = s.hazards := rfl
@[simp] theorem State.writeCop0_late (s : State) (rd : Reg) (v : Word) : (s.writeCop0 rd v).late = s.openWindow rd := rfl
@[simp] theorem State.writeCop0_draws (s : State) (rd : Reg) (v : Word) : (s.writeCop0 rd v).draws = s.draws := rfl

/-! ## A write to a general register -/

/-- A write to a general register changes nothing else. -/
theorem State.setReg_eq (s : State) (r : Reg) (v : Word) : ∃ g, s.setReg r v = { s with gpr := g } := by
  unfold State.setReg; split
  · exact ⟨s.gpr, rfl⟩
  · exact ⟨_, rfl⟩

@[simp] theorem State.setReg_pc (s : State) (r : Reg) (v : Word) : (s.setReg r v).pc = s.pc := by
  obtain ⟨_, h⟩ := s.setReg_eq r v; rw [h]
@[simp] theorem State.setReg_npc (s : State) (r : Reg) (v : Word) : (s.setReg r v).npc = s.npc := by
  obtain ⟨_, h⟩ := s.setReg_eq r v; rw [h]
@[simp] theorem State.setReg_inSlot (s : State) (r : Reg) (v : Word) : (s.setReg r v).inSlot = s.inSlot := by
  obtain ⟨_, h⟩ := s.setReg_eq r v; rw [h]
@[simp] theorem State.setReg_hi (s : State) (r : Reg) (v : Word) : (s.setReg r v).hi = s.hi := by
  obtain ⟨_, h⟩ := s.setReg_eq r v; rw [h]
@[simp] theorem State.setReg_lo (s : State) (r : Reg) (v : Word) : (s.setReg r v).lo = s.lo := by
  obtain ⟨_, h⟩ := s.setReg_eq r v; rw [h]
@[simp] theorem State.setReg_hiloBusy (s : State) (r : Reg) (v : Word) : (s.setReg r v).hiloBusy = s.hiloBusy := by
  obtain ⟨_, h⟩ := s.setReg_eq r v; rw [h]
@[simp] theorem State.setReg_llbit (s : State) (r : Reg) (v : Word) : (s.setReg r v).llbit = s.llbit := by
  obtain ⟨_, h⟩ := s.setReg_eq r v; rw [h]
@[simp] theorem State.setReg_linked (s : State) (r : Reg) (v : Word) : (s.setReg r v).linked = s.linked := by
  obtain ⟨_, h⟩ := s.setReg_eq r v; rw [h]
@[simp] theorem State.setReg_fpr (s : State) (r : Reg) (v : Word) : (s.setReg r v).fpr = s.fpr := by
  obtain ⟨_, h⟩ := s.setReg_eq r v; rw [h]
@[simp] theorem State.setReg_fprTag (s : State) (r : Reg) (v : Word) : (s.setReg r v).fprTag = s.fprTag := by
  obtain ⟨_, h⟩ := s.setReg_eq r v; rw [h]
@[simp] theorem State.setReg_fsr (s : State) (r : Reg) (v : Word) : (s.setReg r v).fsr = s.fsr := by
  obtain ⟨_, h⟩ := s.setReg_eq r v; rw [h]
@[simp] theorem State.setReg_fccBusy (s : State) (r : Reg) (v : Word) : (s.setReg r v).fccBusy = s.fccBusy := by
  obtain ⟨_, h⟩ := s.setReg_eq r v; rw [h]
@[simp] theorem State.setReg_cp0 (s : State) (r : Reg) (v : Word) : (s.setReg r v).cp0 = s.cp0 := by
  obtain ⟨_, h⟩ := s.setReg_eq r v; rw [h]
@[simp] theorem State.setReg_tlb (s : State) (r : Reg) (v : Word) : (s.setReg r v).tlb = s.tlb := by
  obtain ⟨_, h⟩ := s.setReg_eq r v; rw [h]
@[simp] theorem State.setReg_icache (s : State) (r : Reg) (v : Word) : (s.setReg r v).icache = s.icache := by
  obtain ⟨_, h⟩ := s.setReg_eq r v; rw [h]
@[simp] theorem State.setReg_dcache (s : State) (r : Reg) (v : Word) : (s.setReg r v).dcache = s.dcache := by
  obtain ⟨_, h⟩ := s.setReg_eq r v; rw [h]
@[simp] theorem State.setReg_dcacheWritten (s : State) (r : Reg) (v : Word) : (s.setReg r v).dcacheWritten = s.dcacheWritten := by
  obtain ⟨_, h⟩ := s.setReg_eq r v; rw [h]
@[simp] theorem State.setReg_scache (s : State) (r : Reg) (v : Word) : (s.setReg r v).scache = s.scache := by
  obtain ⟨_, h⟩ := s.setReg_eq r v; rw [h]
@[simp] theorem State.setReg_physMap (s : State) (r : Reg) (v : Word) : (s.setReg r v).physMap = s.physMap := by
  obtain ⟨_, h⟩ := s.setReg_eq r v; rw [h]
@[simp] theorem State.setReg_mem (s : State) (r : Reg) (v : Word) : (s.setReg r v).mem = s.mem := by
  obtain ⟨_, h⟩ := s.setReg_eq r v; rw [h]
@[simp] theorem State.setReg_byteOrder (s : State) (r : Reg) (v : Word) : (s.setReg r v).byteOrder = s.byteOrder := by
  obtain ⟨_, h⟩ := s.setReg_eq r v; rw [h]
@[simp] theorem State.setReg_fpiSeen (s : State) (r : Reg) (v : Word) : (s.setReg r v).fpiSeen = s.fpiSeen := by
  obtain ⟨_, h⟩ := s.setReg_eq r v; rw [h]
@[simp] theorem State.setReg_vciPending (s : State) (r : Reg) (v : Word) : (s.setReg r v).vciPending = s.vciPending := by
  obtain ⟨_, h⟩ := s.setReg_eq r v; rw [h]
@[simp] theorem State.setReg_nmiPending (s : State) (r : Reg) (v : Word) : (s.setReg r v).nmiPending = s.nmiPending := by
  obtain ⟨_, h⟩ := s.setReg_eq r v; rw [h]
@[simp] theorem State.setReg_inputs (s : State) (r : Reg) (v : Word) : (s.setReg r v).inputs = s.inputs := by
  obtain ⟨_, h⟩ := s.setReg_eq r v; rw [h]
@[simp] theorem State.setReg_hazards (s : State) (r : Reg) (v : Word) : (s.setReg r v).hazards = s.hazards := by
  obtain ⟨_, h⟩ := s.setReg_eq r v; rw [h]
@[simp] theorem State.setReg_late (s : State) (r : Reg) (v : Word) : (s.setReg r v).late = s.late := by
  obtain ⟨_, h⟩ := s.setReg_eq r v; rw [h]
@[simp] theorem State.setReg_draws (s : State) (r : Reg) (v : Word) : (s.setReg r v).draws = s.draws := by
  obtain ⟨_, h⟩ := s.setReg_eq r v; rw [h]

/-! ## Exception entry, NMI, exception return -/

@[simp] theorem takeException_gpr (e : Exc) (s : State) : (takeException e s).gpr = s.gpr := rfl
@[simp] theorem takeException_hi (e : Exc) (s : State) : (takeException e s).hi = s.hi := rfl
@[simp] theorem takeException_lo (e : Exc) (s : State) : (takeException e s).lo = s.lo := rfl
@[simp] theorem takeException_hiloBusy (e : Exc) (s : State) : (takeException e s).hiloBusy = s.hiloBusy := rfl
@[simp] theorem takeException_llbit (e : Exc) (s : State) : (takeException e s).llbit = s.llbit := rfl
@[simp] theorem takeException_linked (e : Exc) (s : State) : (takeException e s).linked = s.linked := rfl
@[simp] theorem takeException_fpr (e : Exc) (s : State) : (takeException e s).fpr = s.fpr := rfl
@[simp] theorem takeException_fprTag (e : Exc) (s : State) : (takeException e s).fprTag = s.fprTag := rfl
@[simp] theorem takeException_fsr (e : Exc) (s : State) : (takeException e s).fsr = s.fsr := rfl
@[simp] theorem takeException_tlb (e : Exc) (s : State) : (takeException e s).tlb = s.tlb := rfl
@[simp] theorem takeException_icache (e : Exc) (s : State) : (takeException e s).icache = s.icache := rfl
@[simp] theorem takeException_dcache (e : Exc) (s : State) : (takeException e s).dcache = s.dcache := rfl
@[simp] theorem takeException_dcacheWritten (e : Exc) (s : State) : (takeException e s).dcacheWritten = s.dcacheWritten := rfl
@[simp] theorem takeException_scache (e : Exc) (s : State) : (takeException e s).scache = s.scache := rfl
@[simp] theorem takeException_physMap (e : Exc) (s : State) : (takeException e s).physMap = s.physMap := rfl
@[simp] theorem takeException_mem (e : Exc) (s : State) : (takeException e s).mem = s.mem := rfl
@[simp] theorem takeException_byteOrder (e : Exc) (s : State) : (takeException e s).byteOrder = s.byteOrder := rfl
@[simp] theorem takeException_vciPending (e : Exc) (s : State) : (takeException e s).vciPending = s.vciPending := rfl
@[simp] theorem takeException_nmiPending (e : Exc) (s : State) : (takeException e s).nmiPending = s.nmiPending := rfl
@[simp] theorem takeException_inputs (e : Exc) (s : State) : (takeException e s).inputs = s.inputs := rfl
@[simp] theorem takeException_draws (e : Exc) (s : State) : (takeException e s).draws = s.draws := rfl

@[simp] theorem takeNmi_gpr (s : State) : (takeNmi s).gpr = s.gpr := rfl
@[simp] theorem takeNmi_hi (s : State) : (takeNmi s).hi = s.hi := rfl
@[simp] theorem takeNmi_lo (s : State) : (takeNmi s).lo = s.lo := rfl
@[simp] theorem takeNmi_hiloBusy (s : State) : (takeNmi s).hiloBusy = s.hiloBusy := rfl
@[simp] theorem takeNmi_llbit (s : State) : (takeNmi s).llbit = s.llbit := rfl
@[simp] theorem takeNmi_linked (s : State) : (takeNmi s).linked = s.linked := rfl
@[simp] theorem takeNmi_fpr (s : State) : (takeNmi s).fpr = s.fpr := rfl
@[simp] theorem takeNmi_fprTag (s : State) : (takeNmi s).fprTag = s.fprTag := rfl
@[simp] theorem takeNmi_fsr (s : State) : (takeNmi s).fsr = s.fsr := rfl
@[simp] theorem takeNmi_tlb (s : State) : (takeNmi s).tlb = s.tlb := rfl
@[simp] theorem takeNmi_icache (s : State) : (takeNmi s).icache = s.icache := rfl
@[simp] theorem takeNmi_dcache (s : State) : (takeNmi s).dcache = s.dcache := rfl
@[simp] theorem takeNmi_dcacheWritten (s : State) : (takeNmi s).dcacheWritten = s.dcacheWritten := rfl
@[simp] theorem takeNmi_scache (s : State) : (takeNmi s).scache = s.scache := rfl
@[simp] theorem takeNmi_physMap (s : State) : (takeNmi s).physMap = s.physMap := rfl
@[simp] theorem takeNmi_mem (s : State) : (takeNmi s).mem = s.mem := rfl
@[simp] theorem takeNmi_byteOrder (s : State) : (takeNmi s).byteOrder = s.byteOrder := rfl
@[simp] theorem takeNmi_fpiSeen (s : State) : (takeNmi s).fpiSeen = s.fpiSeen := rfl
@[simp] theorem takeNmi_vciPending (s : State) : (takeNmi s).vciPending = s.vciPending := rfl
@[simp] theorem takeNmi_inputs (s : State) : (takeNmi s).inputs = s.inputs := rfl
@[simp] theorem takeNmi_draws (s : State) : (takeNmi s).draws = s.draws := rfl

@[simp] theorem returnFromException_gpr (s : State) : (returnFromException s).gpr = s.gpr := rfl
@[simp] theorem returnFromException_hi (s : State) : (returnFromException s).hi = s.hi := rfl
@[simp] theorem returnFromException_lo (s : State) : (returnFromException s).lo = s.lo := rfl
@[simp] theorem returnFromException_hiloBusy (s : State) : (returnFromException s).hiloBusy = s.hiloBusy := rfl
@[simp] theorem returnFromException_linked (s : State) : (returnFromException s).linked = s.linked := rfl
@[simp] theorem returnFromException_fpr (s : State) : (returnFromException s).fpr = s.fpr := rfl
@[simp] theorem returnFromException_fprTag (s : State) : (returnFromException s).fprTag = s.fprTag := rfl
@[simp] theorem returnFromException_fsr (s : State) : (returnFromException s).fsr = s.fsr := rfl
@[simp] theorem returnFromException_tlb (s : State) : (returnFromException s).tlb = s.tlb := rfl
@[simp] theorem returnFromException_icache (s : State) : (returnFromException s).icache = s.icache := rfl
@[simp] theorem returnFromException_dcache (s : State) : (returnFromException s).dcache = s.dcache := rfl
@[simp] theorem returnFromException_dcacheWritten (s : State) : (returnFromException s).dcacheWritten = s.dcacheWritten := rfl
@[simp] theorem returnFromException_scache (s : State) : (returnFromException s).scache = s.scache := rfl
@[simp] theorem returnFromException_physMap (s : State) : (returnFromException s).physMap = s.physMap := rfl
@[simp] theorem returnFromException_mem (s : State) : (returnFromException s).mem = s.mem := rfl
@[simp] theorem returnFromException_byteOrder (s : State) : (returnFromException s).byteOrder = s.byteOrder := rfl
@[simp] theorem returnFromException_fpiSeen (s : State) : (returnFromException s).fpiSeen = s.fpiSeen := rfl
@[simp] theorem returnFromException_vciPending (s : State) : (returnFromException s).vciPending = s.vciPending := rfl
@[simp] theorem returnFromException_nmiPending (s : State) : (returnFromException s).nmiPending = s.nmiPending := rfl
@[simp] theorem returnFromException_inputs (s : State) : (returnFromException s).inputs = s.inputs := rfl
@[simp] theorem returnFromException_draws (s : State) : (returnFromException s).draws = s.draws := rfl

end Sys2Proof.Machine
end

