-- ==== Sys2Proof/Laws/Caches.lean ====
section
/-! SUPPORT. What an access to memory can do to the state: which fields it may change, and that the tables keep their
canonical form. -/

namespace Sys2Proof.Machine

/-- The state differs at most in the data cache, whose table keeps its form. -/
def LineOnly (s t : State) : Prop :=
  ∃ d, t = { s with dcache := d } ∧ (CMap.wf dcacheEmpty s.dcache = true → CMap.wf dcacheEmpty d = true)

theorem LineOnly.refl (s : State) : LineOnly s s := ⟨s.dcache, rfl, id⟩

theorem LineOnly.trans {s t u : State} (h : LineOnly s t) (k : LineOnly t u) : LineOnly s u := by
  obtain ⟨d, rfl, hd⟩ := h
  obtain ⟨d', rfl, hd'⟩ := k
  exact ⟨d', rfl, fun h => hd' (hd h)⟩

theorem State.setDline_lineOnly (s : State) (k : Nat) (l : DCacheLine) : LineOnly s (s.setDline k l) :=
  ⟨_, rfl, CMap.wf_set _ _ _⟩

/-- The state differs at most in the data cache, the streaming cache, whose tables keep their form, and LLbit, which is cleared
only where the virtual synonym of a sector that the streaming cache holds is rewritten. -/
def CacheOnly (s t : State) : Prop :=
  ∃ d c b, t = { s with dcache := d, scache := c, llbit := b } ∧
    (CMap.wf dcacheEmpty s.dcache = true → CMap.wf dcacheEmpty d = true) ∧
    (CMap.wf scacheEmpty s.scache = true → CMap.wf scacheEmpty c = true) ∧
    (b = s.llbit ∨ (b = false ∧
      ∃ q x y, CMap.get scacheEmpty s.scache q = some x ∧ CMap.get scacheEmpty c q = some y ∧ x ≠ y))

theorem LineOnly.cacheOnly {s t : State} (h : LineOnly s t) : CacheOnly s t := by
  obtain ⟨d, rfl, hd⟩ := h
  exact ⟨d, s.scache, s.llbit, rfl, hd, id, .inl rfl⟩

theorem CacheOnly.refl (s : State) : CacheOnly s s := (LineOnly.refl s).cacheOnly

theorem CacheOnly.trans {s t u : State} (h : CacheOnly s t) (k : LineOnly t u) : CacheOnly s u := by
  obtain ⟨d, c, b, rfl, hd, hc, hb⟩ := h
  obtain ⟨d', rfl, hd'⟩ := k
  exact ⟨d', c, b, rfl, fun h => hd' (hd h), hc, hb⟩

theorem LineOnly.trans_cacheOnly {s t u : State} (h : LineOnly s t) (k : CacheOnly t u) : CacheOnly s u := by
  obtain ⟨d, rfl, hd⟩ := h
  obtain ⟨d', c, b, rfl, hd', hc, hb⟩ := k
  exact ⟨d', c, b, rfl, fun h => hd' (hd h), hc, hb⟩

/-- LLbit after an access that touched at most the caches. -/
theorem CacheOnly.link {s t : State} (h : CacheOnly s t) : KeepsLinkBut s t := by
  obtain ⟨d, c, b, rfl, -, -, hb⟩ := h
  exact hb

theorem State.setSynonym_cacheOnly (s : State) (pa : PAddr) (vs : BitVec 4) : CacheOnly s (s.setSynonym pa vs) :=
  ⟨s.dcache, _, s.llbit, rfl, id, CMap.wf_set _ _ _, .inl rfl⟩

theorem State.dropLine_lineOnly (s : State) (vs : BitVec 4) (pa : PAddr) (i : Nat) : LineOnly s (s.dropLine vs pa i) := by
  unfold State.dropLine
  dsimp only
  split
  · exact s.setDline_lineOnly _ _
  · exact .refl s

/-- Rewriting the synonym of a sector, its D-cache copies invalidated: LLbit is cleared. -/
theorem State.dropSector_setSynonym_cacheOnly (s : State) (vs new : BitVec 4) (pa : PAddr) (h : s.synonym pa = some vs)
    (hne : vs ≠ new) : CacheOnly s ((s.dropSector vs pa).setSynonym pa new) := by
  obtain ⟨d, e, hd⟩ := (((s.dropLine_lineOnly vs pa 0).trans (State.dropLine_lineOnly _ vs pa 1)).trans
    (State.dropLine_lineOnly _ vs pa 2)).trans (State.dropLine_lineOnly _ vs pa 3)
  refine ⟨d, CMap.set scacheEmpty s.scache (sectorOf pa) (some new), false, ?_, hd, CMap.wf_set _ _ _,
    .inr ⟨rfl, sectorOf pa, vs, new, h, CMap.get_set_same _ _ _ _, hne⟩⟩
  unfold State.dropSector State.setSynonym
  rw [e]

theorem State.repairSynonym_cacheOnly (s : State) (va : Word) (pa : PAddr) : CacheOnly s (s.repairSynonym va pa) := by
  unfold State.repairSynonym
  split
  · exact s.setSynonym_cacheOnly _ _
  · next vs h =>
    split
    · exact .refl s
    · next hne => exact s.dropSector_setSynonym_cacheOnly vs _ pa h hne

theorem State.fetchSynonym_cacheOnly (s : State) (va : Word) (t : Translation) : CacheOnly s (s.fetchSynonym va t) := by
  unfold State.fetchSynonym
  split
  · exact s.repairSynonym_cacheOnly _ _
  · exact .refl s

theorem State.fillLine_lineOnly (s : State) (va : Word) (pa : PAddr) : LineOnly s (s.fillLine va pa) :=
  s.setDline_lineOnly _ _

theorem State.bufferLine_lineOnly (s : State) (va : Word) (pa : PAddr) (bs : List Byte) :
    LineOnly s (s.bufferLine va pa bs) := s.setDline_lineOnly _ _

theorem State.clearWords_lineOnly (s : State) (k : Nat) (pa : PAddr) (n : Nat) : LineOnly s (s.clearWords k pa n) := by
  unfold State.clearWords
  dsimp only
  split
  · exact s.setDline_lineOnly _ _
  · exact .refl s

theorem State.clearSynonymCopy_lineOnly (s : State) (va : Word) (t : Translation) (n : Nat) :
    LineOnly s (s.clearSynonymCopy va t n) := by
  unfold State.clearSynonymCopy
  split
  · split
    · exact .refl s
    · split
      · exact .refl s
      · split
        · exact s.clearWords_lineOnly _ _ _
        · exact .refl s
  · exact .refl s

/-- An integer load changes at most the two caches, and LLbit with them. -/
theorem State.afterLoad_cacheOnly (s : State) (va : Word) (t : Translation) (n : Nat) :
    CacheOnly s (s.afterLoad va t n) := by
  unfold State.afterLoad
  split
  · exact .refl s
  · split
    · exact (s.repairSynonym_cacheOnly _ _).trans (State.fillLine_lineOnly _ _ _)
    · exact (s.bufferLine_lineOnly _ _ _).cacheOnly

/-- An integer load: the value, and at most the two caches and LLbit. -/
theorem State.loadInt_cacheOnly (s : State) (va : Word) (t : Translation) (n : Nat) :
    CacheOnly s (s.loadInt va t n).2 := s.afterLoad_cacheOnly va t n

/-- The bytes an integer load gets: those of the data cache, those of memory, or free ones. -/
theorem State.loadBytes_eq (s : State) (va : Word) (t : Translation) (n : Nat) :
    (s.loadBytes va t n).1 =
      if s.dcacheReady va = false then s.dcacheUnready n
      else if (s.dline (dcacheIndex va)).hit t.pa n then (s.dline (dcacheIndex va)).bytes (t.pa.toNat % 32) n
      else s.physBytes t.pa.toNat n := by
  unfold State.loadBytes State.dataBytes State.dcacheHit
  cases s.dcacheReady va <;> simp

/-- An integer store: memory, the byte-order record, and at most the two caches and LLbit. -/
theorem State.storeBytes_cacheOnly (s : State) (va : Word) (t : Translation) (bs : List Byte) :
    CacheOnly (s.writeMemory t.pa bs) (s.storeBytes va t bs) := by
  unfold State.storeBytes
  have h : CacheOnly (s.writeMemory t.pa bs)
      (if t.cachable then (s.writeMemory t.pa bs).repairSynonym va t.pa else s.writeMemory t.pa bs) := by
    split
    · exact State.repairSynonym_cacheOnly _ _ _
    · exact .refl _
  refine h.trans ?_
  dsimp only
  generalize (if t.cachable then (s.writeMemory t.pa bs).repairSynonym va t.pa else s.writeMemory t.pa bs) = u
  by_cases hh : u.dcacheHit va t.pa bs.length = true
  · rw [if_pos hh]; exact State.setDline_lineOnly _ _ _
  · rw [if_neg hh]
    by_cases hc : t.cachable = true
    · rw [if_pos hc]; exact State.fillLine_lineOnly _ _ _
    · rw [if_neg hc]; exact State.bufferLine_lineOnly _ _ _ _

/-- An integer store: memory, the byte-order record, and at most the two caches and LLbit. -/
theorem State.storeInt_cacheOnly (s : State) (va : Word) (t : Translation) (n : Nat) (v : Word) :
    CacheOnly (s.writeMemory t.pa (storedBytes s.bigEndian n v)) (s.storeInt va t n v) :=
  s.storeBytes_cacheOnly va t _

/-- The state differs at most in the two caches, LLbit with them, and the violations that wait to be posted. -/
def CacheAndViolation (s t : State) : Prop := ∃ u v, CacheOnly s u ∧ t = { u with vciPending := v }

theorem CacheOnly.violation {s t : State} (h : CacheOnly s t) : CacheAndViolation s t := ⟨t, t.vciPending, h, rfl⟩

theorem State.floatSynonym_effect (s : State) (va : Word) (t : Translation) :
    CacheAndViolation s (s.floatSynonym va t) := by
  unfold State.floatSynonym
  split
  · split
    · exact (s.setSynonym_cacheOnly _ _).violation
    · next vs h =>
      split
      · exact (CacheOnly.refl s).violation
      · next hne =>
        split
        · exact (s.dropSector_setSynonym_cacheOnly vs _ t.pa h hne).violation
        · split
          · exact (CacheOnly.refl s).violation
          · exact ⟨s, _, .refl s, rfl⟩
  · exact (CacheOnly.refl s).violation

/-- A floating-point load: the value, and at most the caches, LLbit and the violations that wait to be posted. -/
theorem State.loadFloat_effect (s : State) (va : Word) (t : Translation) (n : Nat) :
    CacheAndViolation s (s.loadFloat va t n).2 := s.floatSynonym_effect va t

/-- A floating-point store: memory, the byte-order record, and at most the caches, LLbit and the violations that wait to be
posted. -/
theorem State.storeFloat_effect (s : State) (va : Word) (t : Translation) (n : Nat) (v : Word) :
    CacheAndViolation (s.writeMemory t.pa (storedBytes s.bigEndian n v)) (s.storeFloat va t n v) := by
  unfold State.storeFloat State.floatStoreBytes
  obtain ⟨u, w, h, e⟩ := State.floatSynonym_effect
    (((s.writeMemory t.pa (storedBytes s.bigEndian n v)).clearWords (dcacheIndex va) t.pa
      (storedBytes s.bigEndian n v).length).clearSynonymCopy va t (storedBytes s.bigEndian n v).length) va t
  exact ⟨u, w, ((State.clearWords_lineOnly _ _ _ _).trans (State.clearSynonymCopy_lineOnly _ _ _ _)).trans_cacheOnly h, e⟩

/-! ## Bytes -/

@[simp] theorem bytesOf_length (n : Nat) (v : Word) : (bytesOf n v).length = n := by
  induction n with
  | zero => rfl
  | succ n ih => simp [bytesOf, ih]

@[simp] theorem storedBytes_length (e : Bool) (n : Nat) (v : Word) : (storedBytes e n v).length = n := by
  unfold storedBytes; split <;> simp

end Sys2Proof.Machine
end

