-- ==== Sys2Proof/Laws/Completion.lean ====
section
/-! SUPPORT. From the next state of an instruction to what it keeps: one lemma for each way an instruction completes. -/

namespace Sys2Proof.Machine
open Sys2Proof

/-! ## Registers -/

@[simp] theorem State.reg_advance (s : State) (r : Reg) : s.advance.reg r = s.reg r := rfl
@[simp] theorem State.reg_branchTo (s : State) (a : Word) (r : Reg) : (s.branchTo a).reg r = s.reg r := rfl
@[simp] theorem State.reg_branchNot (s : State) (r : Reg) : s.branchNot.reg r = s.reg r := rfl
@[simp] theorem State.reg_skipSlot (s : State) (r : Reg) : s.skipSlot.reg r = s.reg r := rfl

/-! ## Completion -/

/-- Sequential completion of a state that a part of the machine gave. -/
theorem Advances.of_eq {s u : State} (hp : u.npc = s.npc) : Advances s u.advance := by
  simp [Advances, hp]

/-- An instruction whose only effect is a register write. -/
theorem WritesReg.of_exec {i : Instr} {s : State} {rd : Reg} {v : Word}
    (h : exec i s = .next (s.setReg rd v).advance) : WritesReg i s rd v := by
  refine ⟨_, h, ?_, ?_, ?_, ?_⟩
  · simp [Advances]
  · simp [State.reg_setReg_same]
  · intro q hq; simp [State.reg_setReg_other s v hq]
  · intro p hp
    cases p <;> simp_all [Keeps]

/-- An instruction with no effect but the program counter. -/
theorem DoesNothing.of_exec {i : Instr} {s : State} (h : exec i s = .next s.advance) : DoesNothing i s := by
  refine ⟨_, h, by simp [Advances], ?_⟩
  intro p hp
  cases p <;> simp [Keeps]

/-- An instruction whose only effects are HI and LO. -/
theorem WritesHiLo.of_exec {i : Instr} {s : State} {hi lo : Word} {b : Bool}
    (h : exec i s = .next { s.advance with hi := hi, lo := lo, hiloBusy := b }) : WritesHiLo i s hi lo := by
  refine ⟨_, h, by simp [Advances], rfl, rfl, ?_⟩
  intro p hp
  cases p <;> simp_all [Keeps, State.reg]

/-- A taken transfer of control that links nothing. -/
theorem Transfers.of_exec {i : Instr} {s : State} {a : Word} (h : exec i s = .next (s.branchTo a)) :
    Transfers i s a none := by
  refine ⟨_, h, by simp, by simp, by simp, ?_⟩
  intro p hp
  cases p <;> simp [Keeps]

/-- A taken transfer of control that links. -/
theorem Transfers.of_exec_link {i : Instr} {s : State} {a : Word} {r : Reg}
    (h : exec i s = .next ((s.setReg r (s.pc + 8)).branchTo a)) : Transfers i s a (some r) := by
  refine ⟨_, h, by simp, by simp, by simp, by simp [State.reg_setReg_same], ?_, ?_⟩
  · intro q hq; simp [State.reg_setReg_other s _ hq]
  · intro p hp
    cases p <;> simp_all [Keeps]

/-- A branch that is not taken and links nothing. -/
theorem FallsThrough.of_exec {i : Instr} {s : State} (h : exec i s = .next s.branchNot) : FallsThrough i s none := by
  refine ⟨_, h, by simp, by simp, by simp, ?_⟩
  intro p hp
  cases p <;> simp [Keeps]

/-- A branch that is not taken and links. -/
theorem FallsThrough.of_exec_link {i : Instr} {s : State} {r : Reg}
    (h : exec i s = .next (s.setReg r (s.pc + 8)).branchNot) : FallsThrough i s (some r) := by
  refine ⟨_, h, by simp, by simp, by simp, by simp [State.reg_setReg_same], ?_, ?_⟩
  · intro q hq; simp [State.reg_setReg_other s _ hq]
  · intro p hp
    cases p <;> simp_all [Keeps]

/-- A branch-likely that is not taken and links nothing. -/
theorem SkipsSlot.of_exec {i : Instr} {s : State} (h : exec i s = .next s.skipSlot) : SkipsSlot i s none := by
  refine ⟨_, h, by simp, by simp, by simp, ?_⟩
  intro p hp
  cases p <;> simp [Keeps]

/-- A branch-likely that is not taken and links. -/
theorem SkipsSlot.of_exec_link {i : Instr} {s : State} {r : Reg}
    (h : exec i s = .next (s.setReg r (s.pc + 8)).skipSlot) : SkipsSlot i s (some r) := by
  refine ⟨_, h, by simp, by simp, by simp, by simp [State.reg_setReg_same], ?_, ?_⟩
  · intro q hq; simp [State.reg_setReg_other s _ hq]
  · intro p hp
    cases p <;> simp_all [Keeps]

/-! ## Where an instruction may run -/

/-- A sequence guarded by Status.UX. -/
theorem NeedsUx.of_bind {i : Instr} {s : State} {effect : Prop} {x : Access State}
    (h : exec i s = ((needUx s).bind fun _ => x).finish s) (hx : exec i s = x.finish s → effect) :
    NeedsUx i s effect := by
  unfold NeedsUx UxOn Raises
  cases hu : s.user <;> cases hx' : s.statusView.ux <;> simp_all [needUx]

/-- A sequence guarded by Status.XX. -/
theorem NeedsXx.of_bind {i : Instr} {s : State} {effect : Prop} {x : Access State}
    (h : exec i s = ((needXx s).bind fun _ => x).finish s) (hx : exec i s = x.finish s → effect) :
    NeedsXx i s effect := by
  unfold NeedsXx XxOn Raises
  cases hu : s.user <;> cases hx' : s.statusView.xx <;> simp_all [needXx]

/-- A sequence guarded by coprocessor 0. -/
theorem NeedsCp0.of_bind {i : Instr} {s : State} {effect : Prop} {x : Access State}
    (h : exec i s = ((needCop0 s).bind fun _ => x).finish s) (hx : exec i s = x.finish s → effect) :
    NeedsCp0 i s effect := by
  unfold NeedsCp0 Raises
  cases hu : s.usable0 <;> simp_all [needCop0]

/-- A sequence guarded by coprocessor 1. -/
theorem NeedsCp1.of_bind {i : Instr} {s : State} {effect : Prop} {x : Access State}
    (h : exec i s = ((needCop1 s).bind fun _ => x).finish s) (hx : exec i s = x.finish s → effect) :
    NeedsCp1 i s effect := by
  unfold NeedsCp1 Raises
  cases hu : s.usable1 <;> simp_all [needCop1]

end Sys2Proof.Machine
end

