-- ==== Sys2Proof/Laws/Decode.lean ====
section
/-! SUPPORT. The pieces of a word and the words made of pieces: what decoding reads of each instruction format (R171). -/

namespace Sys2Proof.Machine
open Sys2Proof

/-- The pieces of a word in the R-type layout are the ones it is made of. -/
@[simp] theorem split_rType (op : BitVec 6) (rs rt rd sa : BitVec 5) (fn : BitVec 6) :
    Fields.split (rType op rs rt rd sa fn) = ⟨op, rs, rt, rd, sa, fn⟩ := by
  simp only [Fields.split, rType, Fields.mk.injEq]
  refine ⟨?_, ?_, ?_, ?_, ?_, ?_⟩
  all_goals
    apply BitVec.eq_of_getLsbD_eq
    intro i hi
    simp only [BitVec.getLsbD_extractLsb', BitVec.getLsbD_append, hi, decide_true, Bool.true_and]
    repeat' split
    all_goals first | omega | (congr 1; omega)

/-- Pieces put together and taken apart again. -/
@[simp] theorem split_join (f : Fields) : Fields.split f.join = f := by
  obtain ⟨op, rs, rt, rd, sa, fn⟩ := f
  exact split_rType op rs rt rd sa fn

/-- A word taken apart and put together again. -/
@[simp] theorem join_split (w : IWord) : (Fields.split w).join = w := by
  simp only [Fields.split, Fields.join]
  apply BitVec.eq_of_getLsbD_eq
  intro i hi
  simp only [BitVec.getLsbD_extractLsb', BitVec.getLsbD_append]
  repeat' split
  all_goals
    rw [decide_eq_true (by omega), Bool.true_and]
    congr 1
    omega

/-- The three pieces of an immediate make the immediate. -/
@[simp] theorem imm_pieces (imm : BitVec 16) :
    imm.extractLsb' 11 5 ++ imm.extractLsb' 6 5 ++ imm.extractLsb' 0 6 = imm := by
  apply BitVec.eq_of_getLsbD_eq
  intro i hi
  simp only [BitVec.getLsbD_append, BitVec.getLsbD_extractLsb']
  repeat' split
  all_goals
    rw [decide_eq_true (by omega), Bool.true_and]
    congr 1
    omega

/-- The pieces of a word in the I-type layout. -/
@[simp] theorem split_iType (op : BitVec 6) (rs rt : BitVec 5) (imm : BitVec 16) :
    Fields.split (iType op rs rt imm) =
      ⟨op, rs, rt, imm.extractLsb' 11 5, imm.extractLsb' 6 5, imm.extractLsb' 0 6⟩ := by
  simp only [Fields.split, iType, Fields.mk.injEq]
  refine ⟨?_, ?_, ?_, ?_, ?_, ?_⟩
  all_goals
    apply BitVec.eq_of_getLsbD_eq
    intro i hi
    simp only [BitVec.getLsbD_extractLsb', BitVec.getLsbD_append, hi, decide_true, Bool.true_and]
    repeat' split
    all_goals first | omega | (congr 1 <;> omega)

/-- The five pieces of a target make the target. -/
@[simp] theorem target_pieces (t : BitVec 26) :
    t.extractLsb' 21 5 ++ t.extractLsb' 16 5 ++ t.extractLsb' 11 5 ++ t.extractLsb' 6 5 ++ t.extractLsb' 0 6 = t := by
  apply BitVec.eq_of_getLsbD_eq
  intro i hi
  simp only [BitVec.getLsbD_append, BitVec.getLsbD_extractLsb']
  repeat' split
  all_goals
    rw [decide_eq_true (by omega), Bool.true_and]
    congr 1
    omega

/-- The pieces of a word in the J-type layout. -/
@[simp] theorem split_jType (op : BitVec 6) (t : BitVec 26) :
    Fields.split (jType op t) =
      ⟨op, t.extractLsb' 21 5, t.extractLsb' 16 5, t.extractLsb' 11 5, t.extractLsb' 6 5, t.extractLsb' 0 6⟩ := by
  simp only [Fields.split, jType, Fields.mk.injEq]
  refine ⟨?_, ?_, ?_, ?_, ?_, ?_⟩
  all_goals
    apply BitVec.eq_of_getLsbD_eq
    intro i hi
    simp only [BitVec.getLsbD_extractLsb', BitVec.getLsbD_append, hi, decide_true, Bool.true_and]
    repeat' split
    all_goals first | omega | (congr 1 <;> omega)

/-- The four pieces of a SYSCALL or BREAK code make the code. -/
@[simp] theorem code20_pieces (c : BitVec 20) :
    c.extractLsb' 15 5 ++ c.extractLsb' 10 5 ++ c.extractLsb' 5 5 ++ c.extractLsb' 0 5 = c := by
  apply BitVec.eq_of_getLsbD_eq
  intro i hi
  simp only [BitVec.getLsbD_append, BitVec.getLsbD_extractLsb']
  repeat' split
  all_goals
    rw [decide_eq_true (by omega), Bool.true_and]
    congr 1
    omega

/-- The two pieces of a trap code make the code. -/
@[simp] theorem code10_pieces (c : BitVec 10) : c.extractLsb' 5 5 ++ c.extractLsb' 0 5 = c := by
  apply BitVec.eq_of_getLsbD_eq
  intro i hi
  simp only [BitVec.getLsbD_append, BitVec.getLsbD_extractLsb']
  repeat' split
  all_goals
    rw [decide_eq_true (by omega), Bool.true_and]
    congr 1
    omega

/-- The pieces of a word with a 20-bit code. -/
@[simp] theorem split_code20 (op : BitVec 6) (c : BitVec 20) (fn : BitVec 6) :
    Fields.split (op ++ c ++ fn) =
      ⟨op, c.extractLsb' 15 5, c.extractLsb' 10 5, c.extractLsb' 5 5, c.extractLsb' 0 5, fn⟩ := by
  simp only [Fields.split, Fields.mk.injEq]
  refine ⟨?_, ?_, ?_, ?_, ?_, ?_⟩
  all_goals
    apply BitVec.eq_of_getLsbD_eq
    intro i hi
    simp only [BitVec.getLsbD_extractLsb', BitVec.getLsbD_append, hi, decide_true, Bool.true_and]
    repeat' split
    all_goals first | omega | (congr 1; omega)

/-- The condition code in the field that holds it above two other bits. -/
@[simp] theorem cc_of_field (cc : CC) (b : BitVec 2) : (cc ++ b).extractLsb' 2 3 = cc :=
  BitVec.extractLsb'_append_eq_left

/-- The two bits below a condition code. -/
@[simp] theorem low_of_field (cc : CC) (b : BitVec 2) : (cc ++ b).extractLsb' 0 2 = b :=
  BitVec.extractLsb'_append_eq_right

/-- A field of a condition code and two bits is made of them. -/
@[simp] theorem field_pieces (x : BitVec 5) : x.extractLsb' 2 3 ++ x.extractLsb' 0 2 = x := by
  apply BitVec.eq_of_getLsbD_eq
  intro i hi
  simp only [BitVec.getLsbD_append, BitVec.getLsbD_extractLsb']
  repeat' split
  all_goals
    rw [decide_eq_true (by omega), Bool.true_and]
    congr 1
    omega

end Sys2Proof.Machine
end

