-- ==== Sys2Proof/Laws/Effects.lean ====
section
/-! SUPPORT. From the next state of a load, a store or a floating-point instruction to what it keeps. -/

namespace Sys2Proof.Machine
open Sys2Proof

/-! ## Integer loads and stores -/

/-- What is stored to memory, seen through an access that touched at most the caches. -/
theorem CacheOnly.storedAt {s t : State} {pa : PAddr} {bs : List Byte} (h : CacheOnly (s.writeMemory pa bs) t) :
    StoredAt s t pa.toNat bs := by
  obtain ⟨d, c, b, rfl, -, -, -⟩ := h
  constructor
  · intro k hk hr
    simp [Memory.read_writeList, hk, hr]
  · intro q hq
    simp only [State.writeMemory_mem, Memory.read_writeList]
    rw [if_neg]
    rintro ⟨h1, h2, h3⟩
    rcases hq with h | h | h
    · omega
    · omega
    · simp [h] at h3

/-- A load: a register, and at most the caches. -/
theorem LoadsReg.of_exec {i : Instr} {s u : State} {rt : Reg} {v : Word}
    (h : exec i s = .next (u.setReg rt v).advance) (hu : CacheOnly s u) : LoadsReg i s rt v := by
  have hl := hu.link
  obtain ⟨d, c, b, rfl, -, -, -⟩ := hu
  refine ⟨_, h, ?_, ?_, ?_, ?_, ?_⟩
  · simp [Advances]
  · simp [State.reg_setReg_same]
  · intro q hq
    rw [State.reg_advance, State.reg_setReg_other _ v hq]; rfl
  · simpa [KeepsLinkBut, Resynonymed] using hl
  · intro p hp
    cases p <;> simp_all [Keeps]

/-- A whole load completes where its address can be used. -/
theorem LoadsReg.of_load {i : Instr} {s : State} {n : Nat} {extend : Word → Word} {rt base : Reg} {off va : Word}
    {t : Translation} (h : exec i s = (s.load n extend rt base off).finish s)
    (ha : s.dataAddress .load n base off = .ok (va, t)) : LoadsReg i s rt (extend (s.loadInt va t n).1) := by
  refine .of_exec (u := (s.loadInt va t n).2) ?_ (s.loadInt_cacheOnly va t n)
  rw [h, State.load, ha]; rfl

/-- A partial load completes where its address can be used. -/
theorem LoadsReg.of_loadPart {i : Instr} {s : State} {span : Bool → Nat → Word → Span} {size : Nat}
    {merge : Nat → Word → Word → Word} {rt base : Reg} {off va : Word} {t : Translation}
    (h : exec i s = (s.loadPart span size merge rt base off).finish s)
    (ha : s.dataAddress .load 1 base off = .ok (va, t)) :
    let p := span s.bigEndian size va
    LoadsReg i s rt (merge p.count (s.loadInt (p.first va) (p.translation t) p.count).1 (s.reg rt)) := by
  intro p
  refine .of_exec (u := (s.loadInt (p.first va) (p.translation t) p.count).2) ?_ (s.loadInt_cacheOnly _ _ _)
  rw [h, State.loadPart, ha]; rfl

/-- A store: bytes of memory, and at most the caches. -/
theorem StoresBytes.of_exec {i : Instr} {s u : State} {pa : PAddr} {bs : List Byte}
    (h : exec i s = .next u.advance) (hu : CacheOnly (s.writeMemory pa bs) u) :
    StoresBytes i s pa.toNat bs [] := by
  have hl := hu.link
  have hs := hu.storedAt
  obtain ⟨d, c, b, rfl, -, -, -⟩ := hu
  refine ⟨_, h, ?_, hs, hl, ?_⟩
  · simp [Advances]
  · intro p hp
    cases p <;> simp_all [Keeps, State.reg]

/-- A whole store completes where its address can be used. -/
theorem StoresBytes.of_store {i : Instr} {s : State} {n : Nat} {rt base : Reg} {off va : Word} {t : Translation}
    (h : exec i s = (s.store n rt base off).finish s) (ha : s.dataAddress .store n base off = .ok (va, t)) :
    StoresBytes i s t.pa.toNat (storedBytes s.bigEndian n (s.reg rt)) [] := by
  refine .of_exec (u := s.storeInt va t n (s.reg rt)) ?_ (s.storeInt_cacheOnly va t n _)
  rw [h, State.store, ha]; rfl

/-- A partial store completes where its address can be used. -/
theorem StoresBytes.of_storePart {i : Instr} {s : State} {span : Bool → Nat → Word → Span} {size : Nat}
    {part : Nat → Word → Word} {rt base : Reg} {off va : Word} {t : Translation}
    (h : exec i s = (s.storePart span size part rt base off).finish s)
    (ha : s.dataAddress .store 1 base off = .ok (va, t)) :
    let p := span s.bigEndian size va
    StoresBytes i s (p.translation t).pa.toNat (storedBytes s.bigEndian p.count (part p.count (s.reg rt))) [] := by
  intro p
  refine .of_exec (u := s.storeInt (p.first va) (p.translation t) p.count (part p.count (s.reg rt))) ?_
    (s.storeInt_cacheOnly _ _ _ _)
  rw [h, State.storePart, ha]; rfl

/-! ## Floating-point loads, stores and moves -/

/-- A write to one register of the file leaves every other one alone. -/
theorem State.fprFile_setFprFile (s : State) (r q : Reg) (v : Word) (tag : FprTag) :
    (s.setFprFile r v tag).fprFile q = if q = r then v else s.fprFile q := by
  unfold State.fprFile State.setFprFile
  by_cases h : q = r
  · subst h; simp
  · have : r.toNat ≠ q.toNat := fun e => h (BitVec.eq_of_toNat_eq e.symm)
    simp [h, Vector.getElem_set_ne, this]

/-- The format of a register of the file after a write. -/
theorem State.fprTag_setFprFile' (s : State) (r q : Reg) (v : Word) (tag : FprTag) :
    (s.setFprFile r v tag).fprTag[q.toNat]'q.isLt = if q = r then tag else s.fprTag[q.toNat]'q.isLt := by
  unfold State.setFprFile
  by_cases h : q = r
  · subst h; simp
  · have : r.toNat ≠ q.toNat := fun e => h (BitVec.eq_of_toNat_eq e.symm)
    simp [h, Vector.getElem_set_ne, this]

/-- A store of the floating-point stream. -/
theorem StoresBytes.of_exec_float {i : Instr} {s u : State} {pa : PAddr} {bs : List Byte}
    (h : exec i s = .next u.advance) (hu : CacheAndViolation (s.writeMemory pa bs) u) :
    StoresBytes i s pa.toNat bs [.vciPending] := by
  obtain ⟨w, v, hw, rfl⟩ := hu
  have hl := hw.link
  have hs := hw.storedAt
  obtain ⟨d, c, b, rfl, -, -, -⟩ := hw
  refine ⟨_, h, ?_, hs, hl, ?_⟩
  · simp [Advances]
  · intro p hp
    cases p <;> simp_all [Keeps, State.reg]

/-- A 64-bit write to a floating-point register. -/
theorem WritesFpr.of_exec {i : Instr} {s u : State} {r : Reg} {v : Word} (h : exec i s = .next (u.moveFpr r v).advance)
    (hu : CacheAndViolation s u) : WritesFpr i s r v [.llbit, .dcache, .scache, .vciPending] := by
  obtain ⟨w, x, hw, rfl⟩ := hu
  have hl := hw.link
  obtain ⟨d, c, b, rfl, -, -, -⟩ := hw
  refine ⟨_, h, ?_, ?_, ?_, hl, ?_⟩
  · simp [Advances, State.moveFpr, State.setFprFile]
  · exact (State.fprFile_setFprFile _ r r v .plain).trans (if_pos rfl)
  · intro q hq
    exact ⟨(State.fprFile_setFprFile _ r q v .plain).trans (if_neg hq),
      (State.fprTag_setFprFile' _ r q v .plain).trans (if_neg hq)⟩
  · intro p hp
    cases p <;> simp_all [Keeps, State.reg, State.moveFpr, State.setFprFile]

/-- A 64-bit move to a floating-point register. -/
theorem WritesFpr.of_move {i : Instr} {s : State} {r : Reg} {v : Word} (h : exec i s = .next (s.moveFpr r v).advance) :
    WritesFpr i s r v [] := by
  refine ⟨_, h, ?_, ?_, ?_, .inl rfl, ?_⟩
  · simp [Advances, State.moveFpr, State.setFprFile]
  · exact (State.fprFile_setFprFile _ r r v .plain).trans (if_pos rfl)
  · intro q hq
    exact ⟨(State.fprFile_setFprFile _ r q v .plain).trans (if_neg hq),
      (State.fprTag_setFprFile' _ r q v .plain).trans (if_neg hq)⟩
  · intro p hp
    cases p <;> simp_all [Keeps, State.reg, State.moveFpr, State.setFprFile]

/-- A 32-bit register after a write to one: its value, and with FR = 0 every other one as it was. -/
theorem State.fprWord_moveFprWord (s : State) (r : Reg) (v : BitVec 32) :
    (s.moveFprWord r v).fprWord r = v ∧
      (s.statusView.fr = false → ∀ q, q ≠ r → (s.moveFprWord r v).fprWord q = s.fprWord q) := by
  have hst : (s.moveFprWord r v).statusView = s.statusView := rfl
  have hhome : ∀ q, (s.moveFprWord r v).fprHome q = s.fprHome q := fun q => rfl
  have hhigh : ∀ q, (s.moveFprWord r v).fprHigh q = s.fprHigh q := fun q => rfl
  have hfile : ∀ q, (s.moveFprWord r v).fprFile q = if q = s.fprHome r then
      (if s.statusView.fr then s.freeUpper ++ v
        else if s.fprHigh r then v ++ lowWord (s.fprFile (s.fprHome r))
        else highWord (s.fprFile (s.fprHome r)) ++ v) else s.fprFile q :=
    fun q => State.fprFile_setFprFile _ _ _ _ _
  have low : ∀ x y : BitVec 32, lowWord (x ++ y) = y := fun _ _ => BitVec.setWidth_append_eq_right
  have high : ∀ x y : BitVec 32, highWord (x ++ y) = x := fun _ _ => BitVec.extractLsb'_append_eq_left
  constructor
  · unfold State.fprWord
    rw [hhome, hhigh, hfile, if_pos rfl]
    cases hf : s.statusView.fr <;> cases hr : s.fprHigh r <;> simp_all [State.fprHigh]
  · intro hf q hq
    unfold State.fprWord
    rw [hhome, hhigh, hfile]
    split
    · next heq =>
      have hne : s.fprHigh q ≠ s.fprHigh r := by
        intro hh
        apply hq
        simp only [State.fprHome, State.fprHigh, hf, Bool.not_false, Bool.true_and, Bool.false_eq_true, if_false] at heq hh
        have h0 : ∀ a b : Reg, a &&& 0b11110#5 = b &&& 0b11110#5 → a.getLsbD 0 = b.getLsbD 0 → a = b := by decide
        exact h0 q r heq hh
      cases h1 : s.fprHigh q <;> cases h2 : s.fprHigh r <;> simp_all
    · rfl

/-- A 32-bit write to a floating-point register, after an access that touched at most the caches. -/
theorem WritesFprWord.of_exec {i : Instr} {s u : State} {r : Reg} {v : BitVec 32}
    (h : exec i s = .next (u.moveFprWord r v).advance) (hu : CacheAndViolation s u) :
    WritesFprWord i s r v [.llbit, .dcache, .scache, .vciPending] := by
  have hl : KeepsLinkBut s u := by
    obtain ⟨w, x, hw, rfl⟩ := hu
    exact hw.link
  have hs : u.statusView = s.statusView ∧ u.fpr = s.fpr ∧ u.fprTag = s.fprTag ∧ u.npc = s.npc := by
    obtain ⟨w, x, ⟨d, c, b, rfl, -, -, -⟩, rfl⟩ := hu
    exact ⟨rfl, rfl, rfl, rfl⟩
  obtain ⟨hv, hf, ht, hn⟩ := hs
  have hw : ∀ q, u.fprWord q = s.fprWord q := by
    intro q; simp only [State.fprWord, State.fprHome, State.fprHigh, State.fprFile, hv, hf]; rfl
  have hh : u.fprHome r = s.fprHome r := by simp only [State.fprHome, hv]
  refine ⟨_, h, ?_, ?_, ?_, ?_, hl, ?_⟩
  · simp [Advances, State.moveFprWord, State.setFprFile, hn]
  · exact (State.fprWord_moveFprWord u r v).1
  · intro h0 q hq
    exact ((State.fprWord_moveFprWord u r v).2 (by rw [hv]; exact h0) q hq).trans (hw q)
  · intro q hq
    rw [← hh] at hq
    refine ⟨((State.fprFile_setFprFile u (u.fprHome r) q _ .plain).trans (if_neg hq)).trans ?_,
      ((State.fprTag_setFprFile' u (u.fprHome r) q 0 .plain).trans (if_neg hq)).trans ?_⟩
    · simp only [State.fprFile, hf]
    · simp only [ht]
  · obtain ⟨w, x, ⟨d, c, b, rfl, -, -, -⟩, rfl⟩ := hu
    intro p hp
    cases p <;> simp_all [Keeps, State.reg, State.moveFprWord, State.setFprFile]

/-- A 32-bit move to a floating-point register. -/
theorem WritesFprWord.of_move {i : Instr} {s : State} {r : Reg} {v : BitVec 32}
    (h : exec i s = .next (s.moveFprWord r v).advance) : WritesFprWord i s r v [] := by
  refine ⟨_, h, ?_, (State.fprWord_moveFprWord s r v).1, (State.fprWord_moveFprWord s r v).2, ?_, .inl rfl, ?_⟩
  · simp [Advances, State.moveFprWord, State.setFprFile]
  · intro q hq
    exact ⟨(State.fprFile_setFprFile s (s.fprHome r) q _ .plain).trans (if_neg hq),
      (State.fprTag_setFprFile' s (s.fprHome r) q 0 .plain).trans (if_neg hq)⟩
  · intro p hp
    cases p <;> simp_all [Keeps, State.reg, State.moveFprWord, State.setFprFile]

/-! ## Floating-point operations -/

/-- The end of an operation that writes a floating-point register, as R417 says. -/
theorem EndsWith.of_exec {i : Instr} {s : State} {fd : Reg} {tag : FprTag} {r : FloatResult}
    (h : exec i s = (s.finishResult fd tag r).finish s) : EndsWith i s fd tag r := by
  have hrec : RecordsExceptions s (s.fsr.afterOperation s.statusView.dm r.raised r.e s.draws) r.raised r.e := by
    refine ⟨rfl, rfl, ?_, rfl, rfl, rfl⟩
    intro hd; simp [Fsr.afterOperation, hd]
  have ht : (s.statusView.dm && s.fsr.traps r.raised r.e) = true ↔ TrapsPrecisely s r.raised r.e := by
    simp [TrapsPrecisely, Fsr.traps]
  constructor
  · intro hp
    refine ⟨_, hrec, rfl, ?_⟩
    rw [h, State.finishResult, State.finishFloat, if_pos (ht.2 hp)]
    rfl
  · intro hp
    refine ⟨_, by rw [h, State.finishResult, State.finishFloat, if_neg (fun x => hp (ht.1 x))]; rfl, ?_, ?_, ?_, ?_, ?_, ?_⟩
    · unfold State.writeResult; split <;> simp [Advances, State.resultFprWord, State.setFprFile]
    · unfold State.writeResult HoldsResult
      split
      · next hd =>
        refine ⟨fun _ => ?_, by simp [hd], ?_⟩
        · exact (State.fprFile_setFprFile _ fd fd r.value tag).trans (if_pos rfl)
        · exact (State.fprTag_setFprFile' _ fd fd r.value tag).trans (if_pos rfl)
      · next hd =>
        refine ⟨by simp [hd], fun _ => ?_, ?_⟩
        · exact (congrArg lowWord ((State.fprFile_setFprFile _ fd fd _ tag).trans (if_pos rfl))).trans
            BitVec.setWidth_append_eq_right
        · exact (State.fprTag_setFprFile' _ fd fd (s.freeUpper ++ lowWord r.value) tag).trans (if_pos rfl)
    · intro q hq
      unfold State.writeResult
      split
      · exact ⟨(State.fprFile_setFprFile _ fd q r.value tag).trans (if_neg hq),
          (State.fprTag_setFprFile' _ fd q r.value tag).trans (if_neg hq)⟩
      · exact ⟨(State.fprFile_setFprFile _ fd q (s.freeUpper ++ lowWord r.value) tag).trans (if_neg hq),
          (State.fprTag_setFprFile' _ fd q (s.freeUpper ++ lowWord r.value) tag).trans (if_neg hq)⟩
    · unfold State.writeResult; split <;> simpa [State.resultFprWord, State.setFprFile] using hrec
    · unfold State.writeResult; split <;> rfl
    · intro p hp
      unfold State.writeResult
      split <;> cases p <;> simp_all [Keeps, State.reg, State.resultFprWord, State.setFprFile]

/-- The first of several operands is checked first. -/
theorem LegalPairs.cons {s : State} {r : Reg} {rs : List Reg} :
    LegalPairs s (r :: rs) ↔ (s.statusView.fr = true ∨ r.getLsbD 0 = false) ∧ LegalPairs s rs := by
  unfold LegalPairs
  simp only [List.mem_cons, forall_eq_or_imp]
  exact or_and_left

/-- Legal operands pass, others stop. -/
theorem needFprPairs_eq (s : State) (rs : List Reg) :
    (LegalPairs s rs → needFprPairs s rs = .ok ()) ∧ (¬LegalPairs s rs → needFprPairs s rs = .refuse .oddFprPair) := by
  induction rs with
  | nil => exact ⟨fun _ => rfl, fun h => absurd (.inr (by simp)) h⟩
  | cons r rs ih =>
    rw [LegalPairs.cons]
    unfold needFprPairs needFprPair
    cases hf : s.statusView.fr <;> cases hr : r.getLsbD 0 <;> simp_all

/-- An instruction whose operands are checked first. -/
theorem NeedsPairs.of_bind {i : Instr} {s : State} {rs : List Reg} {effect : Prop} {x : Access State}
    (h : exec i s = ((needFprPairs s rs).bind fun _ => x).finish s) (hx : exec i s = x.finish s → effect) :
    NeedsPairs i s rs effect := by
  constructor
  · intro hl; apply hx; rw [h, (needFprPairs_eq s rs).1 hl]; rfl
  · intro hl; rw [h, (needFprPairs_eq s rs).2 hl]; rfl

/-- An operation of one operand. -/
theorem OperatesOn1.of_exec {i : Instr} {s : State} {fd fs : Reg} {src dst : FprTag} {op : FloatMode → Word → FloatResult}
    (h : exec i s = (s.floatUnary fd fs src dst op).finish s) : OperatesOn1 i s fd fs src dst op :=
  NeedsPairs.of_bind h EndsWith.of_exec

/-- An operation of two operands. -/
theorem OperatesOn2.of_exec {i : Instr} {s : State} {fd fs ft : Reg} {tag : FprTag}
    {op : FloatMode → Word → Word → FloatResult} (h : exec i s = (s.floatBinary fd fs ft tag op).finish s) :
    OperatesOn2 i s fd fs ft tag op :=
  NeedsPairs.of_bind h EndsWith.of_exec

/-- An operation of three operands. -/
theorem OperatesOn3.of_exec {i : Instr} {s : State} {fd fr fs ft : Reg} {tag : FprTag}
    {op : FloatMode → Word → Word → Word → FloatResult} (h : exec i s = (s.floatTernary fd fr fs ft tag op).finish s) :
    OperatesOn3 i s fd fr fs ft tag op :=
  NeedsPairs.of_bind h EndsWith.of_exec

/-- A condition code after one is written. -/
theorem Fsr.cc_setCc (f : Fsr) (n m : CC) (b : Bool) : (f.setCc n b).cc m = if m = n then b else f.cc m := by
  unfold Fsr.cc Fsr.setCc
  have hm := m.isLt
  have hn := n.isLt
  rw [BitVec.getLsbD_or, BitVec.getLsbD_and, BitVec.getLsbD_not, BitVec.getLsbD_shiftLeft, BitVec.getLsbD_shiftLeft,
    BitVec.getLsbD_setWidth, BitVec.getLsbD_ofBool, BitVec.getLsbD_one]
  by_cases h : m = n
  · subst h
    cases b <;> simp [hm]
  · have hne : m.toNat ≠ n.toNat := fun e => h (BitVec.eq_of_toNat_eq e)
    have hd : (m.toNat < n.toNat) ∨ ¬(m.toNat - n.toNat = 0) := by omega
    rcases hd with hd | hd <;> cases b <;> simp [h, hd, hm]

/-- A compare, as R440 and R417 say. -/
theorem Compares.of_exec {i : Instr} {s : State} {f : FloatFormat} {tag : FprTag} {cond : BitVec 4} {ft fs : Reg}
    {cc : CC} (h : exec i s = (s.floatCompare f tag cond ft fs cc).finish s) : Compares i s f tag cond ft fs cc := by
  refine NeedsPairs.of_bind h fun h => ?_
  generalize Machine.floatCompare f s.floatMode cond (s.operandIn fs tag 0) (s.operandIn ft tag 1) = r at h
  have hrec : RecordsExceptions s (s.fsr.afterOperation s.statusView.dm r.raised r.e s.draws) r.raised r.e := by
    refine ⟨rfl, rfl, ?_, rfl, rfl, rfl⟩
    intro hd; simp [Fsr.afterOperation, hd]
  have ht : (s.statusView.dm && s.fsr.traps r.raised r.e) = true ↔ TrapsPrecisely s r.raised r.e := by
    simp [TrapsPrecisely, Fsr.traps]
  constructor
  · intro hp
    refine ⟨_, hrec, rfl, ?_⟩
    rw [h, State.finishFloat, if_pos (ht.2 hp)]
    rfl
  · intro hp
    refine ⟨_, by rw [h, State.finishFloat, if_neg (fun x => hp (ht.1 x))]; rfl, ?_, ?_, ?_, ?_, ?_⟩
    · simp [Advances]
    · exact (Fsr.cc_setCc _ cc cc r.holds).trans (if_pos rfl)
    · intro n hn
      exact (Fsr.cc_setCc _ cc n r.holds).trans (if_neg hn)
    · exact hrec
    · intro p hp
      cases p <;> simp_all [Keeps, State.reg]

end Sys2Proof.Machine
end

