-- ==== Sys2Proof/Laws/Events.lean ====
section
/-! SUPPORT. What each part of the boundary between two instructions can do (R594 to R600). -/

namespace Sys2Proof.Machine

@[simp] theorem State.takeInput_none {s : State} (h : s.inputs = []) : s.takeInput = s := by simp [State.takeInput, h]

theorem State.takeInput_some {s : State} {e : BusEvent} {l : List BusEvent} (h : s.inputs = e :: l) :
    s.takeInput = State.receive { s with inputs := l } e := by simp [State.takeInput, h]

/-- Posting no violation changes nothing. -/
@[simp] theorem State.postViolations_zero (s : State) : s.postViolations 0 = s := by simp [State.postViolations]

/-- Posting violations: they leave the record, VCI is set, and BadPAddr gets the first address captured among them. -/
theorem State.postViolations_pos (s : State) {n : Nat} (h : 0 < n) (hn : n ≤ s.vciPending.length) :
    s.postViolations n =
      { s with
        vciPending := s.vciPending.drop n
        cp0 := { s.cp0 with
          badPAddr := ((s.vciPending.take n).findSome? id).getD s.cp0.badPAddr
          cause := { s.cp0.cause with vci := true } } } := by
  unfold State.postViolations
  split
  · next he =>
    have := congrArg List.length he
    rw [List.length_take, List.length_nil] at this
    omega
  · rfl

/-- What is posted between two instructions is some number of the violations that wait. -/
theorem State.postViolation_eq (s : State) :
    ∃ n, n ≤ s.vciPending.length ∧ s.postViolation = s.postViolations n := by
  unfold State.postViolation
  split
  · exact ⟨0, Nat.zero_le _, s.postViolations_zero.symm⟩
  · exact ⟨_, Nat.le_of_lt_succ (Nat.mod_lt _ (Nat.succ_pos _)), rfl⟩

/-- The floating-point interrupt condition is as the CPU saw it, or as the FSR has it. -/
theorem State.followFpi_eq (s : State) : s.followFpi = s ∨ s.followFpi = { s with fpiSeen := s.fsr.fpi } := by
  unfold State.followFpi
  split
  · exact .inl rfl
  · split
    · exact .inr rfl
    · exact .inl rfl

/-- The cycle counter stands still, or advances. -/
theorem State.tick_eq (s : State) : ∃ n, s.tick = { s with cp0 := { s.cp0 with counts := n } } := by
  unfold State.tick
  split
  · exact ⟨s.cp0.counts, rfl⟩
  · exact ⟨_, rfl⟩

end Sys2Proof.Machine
end

