-- ==== Sys2Proof/Laws/Exceptions.lean ====
section
/-! SUPPORT. What taking an exception does to coprocessor 0 and to the program (R580 to R582, R134). -/

namespace Sys2Proof.Machine

/-! ## What the event loads -/

@[simp] theorem Exc.load_status (e : Exc) (n : Nat) (c : Cop0) : (e.load n c).status = c.status := by cases e <;> rfl
@[simp] theorem Exc.load_cause (e : Exc) (n : Nat) (c : Cop0) : (e.load n c).cause = c.cause := by cases e <;> rfl
@[simp] theorem Exc.load_epc (e : Exc) (n : Nat) (c : Cop0) : (e.load n c).epc = c.epc := by cases e <;> rfl
@[simp] theorem Exc.load_config (e : Exc) (n : Nat) (c : Cop0) : (e.load n c).config = c.config := by cases e <;> rfl
@[simp] theorem Exc.load_trapBase (e : Exc) (n : Nat) (c : Cop0) : (e.load n c).trapBase = c.trapBase := by cases e <;> rfl
@[simp] theorem Exc.load_counts (e : Exc) (n : Nat) (c : Cop0) : (e.load n c).counts = c.counts := by cases e <;> rfl
@[simp] theorem Exc.load_wired (e : Exc) (n : Nat) (c : Cop0) : (e.load n c).wired = c.wired := by cases e <;> rfl
@[simp] theorem Exc.load_asid (e : Exc) (n : Nat) (c : Cop0) : (e.load n c).entryHi.asid = c.entryHi.asid := by
  cases e <;> rfl

/-! ## The entry -/

@[simp] theorem takeException_inSlot (e : Exc) (s : State) : (takeException e s).inSlot = false := rfl

@[simp] theorem takeException_npc (e : Exc) (s : State) : (takeException e s).npc = (takeException e s).pc + 4 := rfl

theorem takeException_pc (e : Exc) (s : State) :
    (takeException e s).pc = s.trapBaseView.vector (if s.statusView.exl then 0xc00 else e.offset) := rfl

@[simp] theorem takeException_excCode (e : Exc) (s : State) : (takeException e s).cp0.cause.excCode = e.code := rfl

@[simp] theorem takeException_status (e : Exc) (s : State) :
    (takeException e s).cp0.status = { s.cp0.status with exl := true } := by
  simp only [takeException, Cop0.saveResume]
  split <;> simp

theorem takeException_epc (e : Exc) (s : State) :
    (takeException e s).cp0.epc = if s.statusView.exl then s.cp0.epc else s.resumeAddress := by
  simp only [takeException, Cop0.saveResume]
  split <;> simp

theorem takeException_cause (e : Exc) (s : State) :
    (takeException e s).cp0.cause = { s.cp0.cause with
      bd := if s.statusView.exl then s.cp0.cause.bd else s.inSlot, excCode := e.code, ce := e.ce s.draws } := by
  simp only [takeException, Cop0.saveResume]
  split <;> simp

/-- The registers of coprocessor 0 besides Cause, Status and EPC are those that the event loads. -/
theorem takeException_cp0 (e : Exc) (s : State) :
    (takeException e s).cp0 = { e.load s.draws s.cp0 with
      cause := (takeException e s).cp0.cause, status := (takeException e s).cp0.status,
      epc := (takeException e s).cp0.epc } := by
  simp only [takeException, Cop0.saveResume]
  split <;> rfl

@[simp] theorem takeException_user (e : Exc) (s : State) : (takeException e s).user = false := by
  have h : (takeException e s).statusView = (takeException e s).cp0.status := State.statusView_of_closed rfl
  simp [State.user, h]

end Sys2Proof.Machine
end

