-- ==== Sys2Proof/Laws/Frames.lean ====
section
/-! SUPPORT. What the shared operations of the instructions outside coprocessor 0 can do at most: one lemma per operation, for
statements about every instruction. -/

namespace Sys2Proof.Machine

/-! ## The effects -/

/-- The system state, LLbit but for a repair of the streaming cache, the physical map and the model's records of time are as they
were, the program is sequential outside a delay slot, and every table keeps its canonical form. -/
structure Ordinary (s t : State) : Prop where
  cp0 : t.cp0 = s.cp0
  tlb : t.tlb = s.tlb
  icache : t.icache = s.icache
  late : t.late = s.late
  link : KeepsLinkBut s t
  physMap : t.physMap = s.physMap
  dcacheWritten : t.dcacheWritten = s.dcacheWritten
  inputs : t.inputs = s.inputs
  draws : t.draws = s.draws
  hazards : t.hazards = s.hazards
  nmiPending : t.nmiPending = s.nmiPending
  sequential : Sequential t
  canonical : Canonical s → Canonical t

/-- An ordinary effect, or an exception taken with nothing written but the FSR. -/
inductive Effect (s : State) : State → Prop where
  | ordinary {t : State} (h : Ordinary s t) : Effect s t
  | exception (e : Exc) (f : Fsr) : Effect s (takeException e { s with fsr := f })

/-- A part of an instruction whose next state, if it gives one, has such an effect. -/
def Access.Within (s : State) (x : Access State) : Prop := ∀ t, x = .ok t → Effect s t

theorem Access.Within.finish {s t : State} {x : Access State} (h : x.Within s) (e : x.finish s = .next t) : Effect s t := by
  cases x with
  | ok u => simp only [Access.finish_ok, Host.Outcome.next.injEq] at e; exact h t (by rw [e])
  | raise x => simp only [Access.finish_raise, Host.Outcome.next.injEq] at e; exact e ▸ .exception x s.fsr
  | fault f => cases e
  | refuse r => cases e

theorem Access.Within.bind {s : State} {α : Type} {x : Access α} {f : α → Access State} (h : ∀ a, (f a).Within s) :
    (x.bind f).Within s := by
  intro t e
  obtain ⟨a, -, ha⟩ := Access.bind_eq_ok.mp e
  exact h a t ha

theorem Access.Within.raise (s : State) (e : Exc) : (Access.raise e).Within s := fun _ h => by cases h

theorem Access.Within.refuse (s : State) (r : Refusal) : (Access.refuse r).Within s := fun _ h => by cases h

theorem Access.Within.ok {s t : State} (h : Ordinary s t) : (Access.ok t).Within s := by
  rintro u e
  cases e
  exact .ordinary h

/-! ## States -/

/-- The tables of a state that differs in none of them. -/
theorem Canonical.of_eq {s t : State} (h : Canonical s) (hm : t.mem = s.mem) (hb : t.byteOrder = s.byteOrder)
    (ht : t.tlb = s.tlb) (hi : t.icache = s.icache) (hd : t.dcache = s.dcache)
    (hw : t.dcacheWritten = s.dcacheWritten) (hc : t.scache = s.scache) : Canonical t :=
  ⟨hm ▸ h.mem, hb ▸ h.byteOrder, ht ▸ h.tlb, hi ▸ h.icache, hd ▸ h.dcache, hw ▸ h.dcacheWritten, hc ▸ h.scache⟩

theorem Canonical.cacheOnly {s t : State} (h : Canonical s) (c : CacheOnly s t) : Canonical t := by
  obtain ⟨d, k, b, rfl, hd, hk, -⟩ := c
  exact ⟨h.mem, h.byteOrder, h.tlb, h.icache, hd h.dcache, h.dcacheWritten, hk h.scache⟩

theorem Canonical.writeMemory {s : State} (h : Canonical s) (pa : PAddr) (bs : List Byte) :
    Canonical (s.writeMemory pa bs) :=
  ⟨Memory.wf_writeList _ _ _ h.mem, ByteOrder.wf_mark _ _ _ _ h.byteOrder, h.tlb, h.icache, h.dcache, h.dcacheWritten, h.scache⟩

/-- An effect before sequential completion, on a state that differs in nothing but registers and caches. -/
theorem Ordinary.advance {s t : State} (c : Canonical s → Canonical t) (cp0 : t.cp0 = s.cp0) (tlb : t.tlb = s.tlb)
    (icache : t.icache = s.icache) (late : t.late = s.late) (link : KeepsLinkBut s t)
    (physMap : t.physMap = s.physMap) (dcacheWritten : t.dcacheWritten = s.dcacheWritten) (inputs : t.inputs = s.inputs)
    (draws : t.draws = s.draws) (hazards : t.hazards = s.hazards) (nmi : t.nmiPending = s.nmiPending) :
    Ordinary s t.advance :=
  ⟨cp0, tlb, icache, late, link, physMap, dcacheWritten, inputs, draws, hazards, nmi, fun _ => rfl,
    fun h => (c h).of_eq rfl rfl rfl rfl rfl rfl rfl⟩

theorem Ordinary.advance_self (s : State) : Ordinary s s.advance :=
  .advance id rfl rfl rfl rfl (.inl rfl) rfl rfl rfl rfl rfl rfl

theorem Ordinary.setReg (s : State) (r : Reg) (v : Word) : Ordinary s (s.setReg r v).advance := by
  refine .advance (fun h => h.of_eq ?_ ?_ ?_ ?_ ?_ ?_ ?_) ?_ ?_ ?_ ?_ (.inl ?_) ?_ ?_ ?_ ?_ ?_ ?_ <;> simp

theorem Ordinary.branchTo (s : State) (a : Word) : Ordinary s (s.branchTo a) :=
  ⟨rfl, rfl, rfl, rfl, .inl rfl, rfl, rfl, rfl, rfl, rfl, rfl, nofun, fun h => h.of_eq rfl rfl rfl rfl rfl rfl rfl⟩

theorem Ordinary.link_branchTo (s : State) (r : Reg) (v a : Word) : Ordinary s ((s.setReg r v).branchTo a) := by
  refine ⟨?_, ?_, ?_, ?_, .inl ?_, ?_, ?_, ?_, ?_, ?_, ?_, nofun, fun h => h.of_eq ?_ ?_ ?_ ?_ ?_ ?_ ?_⟩ <;> simp

/-! ## Integer instructions -/

theorem State.writeReg_within (s : State) (r : Reg) (v : Word) : (s.writeReg r v).Within s := .ok (.setReg s r v)

theorem State.moveIf_within (s : State) (c : Bool) (rd rs : Reg) : (s.moveIf c rd rs).Within s := by
  unfold State.moveIf
  split
  · exact .ok (.setReg s _ _)
  · exact .ok (.advance_self s)

theorem State.writeWordOrTrap_within (s : State) (rd : Reg) (a b : Word) (t : BitVec 33) :
    (s.writeWordOrTrap rd a b t).Within s := by
  unfold State.writeWordOrTrap
  split
  · exact s.writeReg_within _ _
  · split
    · exact .raise s _
    · exact s.writeReg_within _ _

theorem State.writeDoubleOrTrap_within (s : State) (rd : Reg) (t : BitVec 65) : (s.writeDoubleOrTrap rd t).Within s := by
  unfold State.writeDoubleOrTrap
  split
  · exact .raise s _
  · exact s.writeReg_within _ _

theorem Ordinary.writeHiLo (s : State) (hi lo : Word) (b : Bool) :
    Ordinary s { s.advance with hi := hi, lo := lo, hiloBusy := b } :=
  ⟨rfl, rfl, rfl, rfl, .inl rfl, rfl, rfl, rfl, rfl, rfl, rfl, fun _ => rfl, fun h => h.of_eq rfl rfl rfl rfl rfl rfl rfl⟩

theorem State.writeHiLo_within (s : State) (hi lo : Word) : (s.writeHiLo hi lo).Within s := .ok (.writeHiLo s hi lo true)

theorem State.trapIf_within (s : State) (c : Bool) : (s.trapIf c).Within s := by
  unfold State.trapIf
  split
  · exact .raise s _
  · exact .ok (.advance_self s)

/-! ## Jumps and branches -/

theorem Ordinary.branchNot (s : State) : Ordinary s s.branchNot :=
  ⟨rfl, rfl, rfl, rfl, .inl rfl, rfl, rfl, rfl, rfl, rfl, rfl, nofun, fun h => h.of_eq rfl rfl rfl rfl rfl rfl rfl⟩

theorem Ordinary.skipSlot (s : State) : Ordinary s s.skipSlot :=
  ⟨rfl, rfl, rfl, rfl, .inl rfl, rfl, rfl, rfl, rfl, rfl, rfl, fun _ => by
    simp only [State.skipSlot_npc, State.skipSlot_pc]; bv_omega, fun h => h.of_eq rfl rfl rfl rfl rfl rfl rfl⟩

/-- Writing a link register first adds nothing to an effect. -/
theorem Ordinary.after_setReg {s t : State} {r : Reg} {v : Word} (h : Ordinary (s.setReg r v) t) : Ordinary s t := by
  have hl := h.link
  refine ⟨?_, ?_, ?_, ?_, by simpa [KeepsLinkBut, Resynonymed] using hl, ?_, ?_, ?_, ?_, ?_, ?_, h.sequential,
      fun c => h.canonical (c.of_eq ?_ ?_ ?_ ?_ ?_ ?_ ?_)⟩ <;>
    simp [h.cp0, h.tlb, h.icache, h.late, h.physMap, h.dcacheWritten, h.inputs, h.draws, h.hazards, h.nmiPending]

theorem State.branchIf_within (s : State) (c : Bool) (a : Word) : (s.branchIf c a).Within s := by
  unfold State.branchIf
  split
  · exact .ok (.branchTo s a)
  · exact .ok (.branchNot s)

theorem State.branchLikelyIf_within (s : State) (c : Bool) (a : Word) : (s.branchLikelyIf c a).Within s := by
  unfold State.branchLikelyIf
  split
  · exact .ok (.branchTo s a)
  · exact .ok (.skipSlot s)

theorem State.link_branchIf_within (s : State) (r : Reg) (c : Bool) (a : Word) : ((s.link r).branchIf c a).Within s := by
  unfold State.branchIf State.link
  split
  · exact .ok (.after_setReg (.branchTo _ a))
  · exact .ok (.after_setReg (.branchNot _))

theorem State.link_branchLikelyIf_within (s : State) (r : Reg) (c : Bool) (a : Word) :
    ((s.link r).branchLikelyIf c a).Within s := by
  unfold State.branchLikelyIf State.link
  split
  · exact .ok (.after_setReg (.branchTo _ a))
  · exact .ok (.after_setReg (.skipSlot _))

/-! ## Loads and stores -/

theorem Ordinary.cacheOnly {s t : State} (h : CacheOnly s t) (r : Reg) (v : Word) :
    Ordinary s (t.setReg r v).advance := by
  have hl := h.link
  have hc : Canonical s → Canonical t := (·.cacheOnly h)
  obtain ⟨d, c, b, rfl, -, -, -⟩ := h
  refine .advance (fun h => (hc h).of_eq ?_ ?_ ?_ ?_ ?_ ?_ ?_) ?_ ?_ ?_ ?_ (by simpa [KeepsLinkBut, Resynonymed] using hl) ?_ ?_ ?_ ?_ ?_ ?_
  all_goals simp

theorem Ordinary.stored {s t : State} {pa : PAddr} {bs : List Byte} (h : CacheOnly (s.writeMemory pa bs) t) :
    Ordinary s t.advance := by
  have hl := h.link
  have hc : Canonical s → Canonical t := fun c => (c.writeMemory pa bs).cacheOnly h
  obtain ⟨d, c, b, rfl, -, -, -⟩ := h
  exact .advance hc rfl rfl rfl rfl hl rfl rfl rfl rfl rfl rfl

theorem State.load_within (s : State) (n : Nat) (f : Word → Word) (rt base : Reg) (off : Word) :
    (s.load n f rt base off).Within s := .bind fun _ => .ok (.cacheOnly (s.loadInt_cacheOnly _ _ n) _ _)

theorem State.store_within (s : State) (n : Nat) (rt base : Reg) (off : Word) : (s.store n rt base off).Within s :=
  .bind fun _ => .ok (.stored (s.storeInt_cacheOnly _ _ n _))

theorem State.loadPart_within (s : State) (span : Bool → Nat → Word → Span) (size : Nat) (m : Nat → Word → Word → Word)
    (rt base : Reg) (off : Word) : (s.loadPart span size m rt base off).Within s :=
  .bind fun _ => .ok (.cacheOnly (s.loadInt_cacheOnly _ _ _) _ _)

theorem State.storePart_within (s : State) (span : Bool → Nat → Word → Span) (size : Nat) (f : Nat → Word → Word)
    (rt base : Reg) (off : Word) : (s.storePart span size f rt base off).Within s :=
  .bind fun _ => .ok (.stored (s.storeInt_cacheOnly _ _ _ _))

/-- A load that links completes only from a cachable address, as the load it is, with LLbit set and its access recorded. -/
theorem State.loadLinked_eq_ok {s t : State} {n : Nat} {f : Word → Word} {rt base : Reg} {off : Word} :
    s.loadLinked n f rt base off = .ok t ↔ ∃ a, s.dataAddress .load n base off = .ok a ∧ a.2.cachable = true ∧
      t = { s.loadFrom a n f rt with llbit := true, linked := some (linkedAccess a n) } := by
  unfold State.loadLinked
  rw [Access.bind_eq_ok]
  refine exists_congr fun a => and_congr_right fun _ => ?_
  cases a.2.cachable <;> simp [eq_comm]

/-- A conditional store completes only as the access last linked, from a cachable address: as the store and 1, with LLbit set,
or with nothing but 0. -/
theorem State.storeConditional_eq_ok {s t : State} {n : Nat} {rt base : Reg} {off : Word}
    (h : s.storeConditional n rt base off = .ok t) : ∃ a, s.dataAddress .store n base off = .ok a ∧ a.2.cachable = true ∧
      s.linked = some (linkedAccess a n) ∧
      (t = (s.setReg rt 0).advance ∨
        s.llbit = true ∧ t = ((s.storeInt a.1 a.2 n (s.reg rt)).setReg rt 1).advance) := by
  obtain ⟨a, ha, h⟩ := Access.bind_eq_ok.mp h
  split at h
  · cases h
  · rename_i hc
    split at h
    · cases h
    · rename_i hl
      refine ⟨a, ha, by simpa using hc, not_not.mp hl, ?_⟩
      split at h <;> cases h
      · rename_i hb
        exact .inr ⟨by simp_all, rfl⟩
      · exact .inl rfl

theorem State.storeConditional_within (s : State) (n : Nat) (rt base : Reg) (off : Word) :
    (s.storeConditional n rt base off).Within s := by
  refine .bind fun a => ?_
  split
  · exact .refuse s _
  split
  · exact .refuse s _
  split
  · have h := s.storeInt_cacheOnly a.1 a.2 n (s.reg rt)
    have hl := h.link
    have hc : Canonical s → Canonical (s.storeInt a.1 a.2 n (s.reg rt)) := fun c => (c.writeMemory _ _).cacheOnly h
    obtain ⟨d, c, b, e, -, -, -⟩ := h
    rw [e] at hc hl ⊢
    refine .ok (.advance (fun h => (hc h).of_eq ?_ ?_ ?_ ?_ ?_ ?_ ?_) ?_ ?_ ?_ ?_ (by simpa [KeepsLinkBut, Resynonymed] using hl) ?_ ?_ ?_
      ?_ ?_ ?_)
    all_goals simp
  · exact .ok (.setReg s _ _)

theorem State.prefetch_within (s : State) (base : Reg) (off : Word) : (s.prefetch base off).Within s := by
  refine .bind fun a => ?_
  split
  · exact .ok (.advance_self s)
  · exact .refuse s _

/-! ## Floating point -/

theorem Ordinary.setFprFile {s t : State} (h : CacheAndViolation s t) (r : Reg) (v : Word) (tag : FprTag) :
    Ordinary s (t.setFprFile r v tag).advance := by
  obtain ⟨u, w, h, rfl⟩ := h
  have hl := h.link
  have hc : Canonical s → Canonical u := (·.cacheOnly h)
  obtain ⟨d, c, b, rfl, -, -, -⟩ := h
  exact .advance (fun h => (hc h).of_eq rfl rfl rfl rfl rfl rfl rfl) rfl rfl rfl rfl hl rfl rfl rfl rfl rfl rfl

theorem Ordinary.storedFloat {s t : State} {pa : PAddr} {bs : List Byte} (h : CacheAndViolation (s.writeMemory pa bs) t) :
    Ordinary s t.advance := by
  obtain ⟨u, w, h, rfl⟩ := h
  have hl := h.link
  have hc : Canonical s → Canonical u := fun c => (c.writeMemory pa bs).cacheOnly h
  obtain ⟨d, c, b, rfl, -, -, -⟩ := h
  exact .advance (fun h => (hc h).of_eq rfl rfl rfl rfl rfl rfl rfl) rfl rfl rfl rfl hl rfl rfl rfl rfl rfl rfl

theorem CacheAndViolation.refl (s : State) : CacheAndViolation s s := (CacheOnly.refl s).violation

theorem State.loadFprWord_within (s : State) (ft base : Reg) (off : Word) : (s.loadFprWord ft base off).Within s :=
  .bind fun _ => .ok (.setFprFile (s.loadFloat_effect _ _ 4) _ _ _)

theorem State.loadFpr_within (s : State) (ft base : Reg) (off : Word) : (s.loadFpr ft base off).Within s :=
  .bind fun _ => .bind fun _ => .ok (.setFprFile (s.loadFloat_effect _ _ 8) _ _ _)

theorem State.storeFprWord_within (s : State) (ft base : Reg) (off : Word) : (s.storeFprWord ft base off).Within s :=
  .bind fun _ => .ok (.storedFloat (s.storeFloat_effect _ _ 4 _))

theorem State.storeFpr_within (s : State) (ft base : Reg) (off : Word) : (s.storeFpr ft base off).Within s :=
  .bind fun _ => .bind fun _ => .ok (.storedFloat (s.storeFloat_effect _ _ 8 _))

theorem State.moveFpr_within (s : State) (r : Reg) (v : Word) : (Access.ok (s.moveFpr r v).advance).Within s :=
  .ok (.setFprFile (.refl s) r v .plain)

theorem State.moveFprWord_within (s : State) (r : Reg) (v : BitVec 32) :
    (Access.ok (s.moveFprWord r v).advance).Within s := .ok (.setFprFile (.refl s) _ _ .plain)

theorem State.moveSingle_within (s : State) (fd fs : Reg) : (s.moveSingle fd fs).Within s :=
  s.moveFprWord_within fd (s.fprWord fs)

theorem State.moveDouble_within (s : State) (fd fs : Reg) : (s.moveDouble fd fs).Within s :=
  .bind fun _ => s.moveFpr_within fd (s.fprFile fs)

theorem State.moveSingleIf_within (s : State) (c : Bool) (fd fs : Reg) : (s.moveSingleIf c fd fs).Within s := by
  unfold State.moveSingleIf
  split
  · exact s.moveSingle_within fd fs
  · exact .ok (.advance_self s)

theorem State.moveDoubleIf_within (s : State) (c : Bool) (fd fs : Reg) : (s.moveDoubleIf c fd fs).Within s := by
  refine .bind fun _ => ?_
  split
  · exact s.moveDouble_within fd fs
  · exact .ok (.advance_self s)

theorem State.finishFloat_within {s : State} {raised : BitVec 5} {e : Bool} {w : State → State}
    (h : ∀ f, Ordinary s (w { s with fsr := f })) : (s.finishFloat raised e w).Within s := by
  unfold State.finishFloat
  dsimp only
  split
  · rintro t ⟨⟩
    exact .exception _ _
  · exact .ok (h _)

theorem State.finishResult_within (s : State) (fd : Reg) (tag : FprTag) (r : FloatResult) :
    (s.finishResult fd tag r).Within s := by
  refine State.finishFloat_within fun f => ?_
  unfold State.writeResult State.resultFprWord
  split <;> exact .advance (fun h => h.of_eq rfl rfl rfl rfl rfl rfl rfl) rfl rfl rfl rfl (.inl rfl) rfl rfl rfl rfl rfl rfl

theorem State.floatUnary_within (s : State) (fd fs : Reg) (a b : FprTag) (op : FloatMode → Word → FloatResult) :
    (s.floatUnary fd fs a b op).Within s := .bind fun _ => s.finishResult_within _ _ _

theorem State.floatBinary_within (s : State) (fd fs ft : Reg) (tag : FprTag) (op : FloatMode → Word → Word → FloatResult) :
    (s.floatBinary fd fs ft tag op).Within s := .bind fun _ => s.finishResult_within _ _ _

theorem State.floatTernary_within (s : State) (fd fr fs ft : Reg) (tag : FprTag)
    (op : FloatMode → Word → Word → Word → FloatResult) : (s.floatTernary fd fr fs ft tag op).Within s :=
  .bind fun _ => s.finishResult_within _ _ _

theorem State.floatCompare_within (s : State) (f : FloatFormat) (tag : FprTag) (cond : BitVec 4) (ft fs : Reg) (cc : CC) :
    (s.floatCompare f tag cond ft fs cc).Within s := by
  refine .bind fun _ => State.finishFloat_within fun g => ?_
  exact ⟨rfl, rfl, rfl, rfl, .inl rfl, rfl, rfl, rfl, rfl, rfl, rfl, fun _ => rfl, fun h => h.of_eq rfl rfl rfl rfl rfl rfl rfl⟩

theorem State.writeFsr_within (s : State) (w : BitVec 32) : (s.writeFsr w).Within s := by
  unfold State.writeFsr
  dsimp only
  split
  · rintro t ⟨⟩
    exact .exception _ _
  · exact .ok ⟨rfl, rfl, rfl, rfl, .inl rfl, rfl, rfl, rfl, rfl, rfl, rfl, fun _ => rfl, fun h => h.of_eq rfl rfl rfl rfl rfl rfl rfl⟩

end Sys2Proof.Machine
end

