-- ==== Sys2Proof/Laws/Guards.lean ====
section
/-! SUPPORT. An instruction that is not enabled takes its Coprocessor Unusable or Reserved Instruction exception (R571, R572). -/

namespace Sys2Proof.Machine
open Sys2Proof

/-- The exceptions of an instruction that is not enabled. -/
def Exc.bars (e : Exc) : Prop := e = .reservedInstruction ∨ ∃ u, e = .coprocessorUnusable u

/-- The instruction takes the exception of one that is not enabled. -/
def TakesBar (s : State) (x : Access State) : Prop := ∃ e : Exc, e.bars ∧ x.finish s = .next (takeException e s)

theorem State.uxOn_raise {s : State} (h : s.uxOn = false) : needUx s = .raise .reservedInstruction := by
  simp [State.uxOn] at h; exact needUx_raise h.1 h.2

theorem State.xxOn_raise {s : State} (h : s.xxOn = false) : needXx s = .raise .reservedInstruction := by
  simp [State.xxOn] at h; exact needXx_raise h.1 h.2

theorem TakesBar.ux {s : State} (f : Unit → Access State) (h : s.uxOn = false) : TakesBar s ((needUx s).bind f) :=
  ⟨_, .inl rfl, by rw [s.uxOn_raise h]; rfl⟩

theorem TakesBar.xx {s : State} (f : Unit → Access State) (h : s.xxOn = false) : TakesBar s ((needXx s).bind f) :=
  ⟨_, .inl rfl, by rw [s.xxOn_raise h]; rfl⟩

theorem TakesBar.cop0 {s : State} (f : Unit → Access State) (h : s.usable0 = false) : TakesBar s ((needCop0 s).bind f) :=
  ⟨_, .inr ⟨_, rfl⟩, by rw [needCop0_raise h]; rfl⟩

theorem TakesBar.cop1 {s : State} (f : Unit → Access State) (h : s.usable1 = false) : TakesBar s ((needCop1 s).bind f) :=
  ⟨_, .inr ⟨_, rfl⟩, by rw [needCop1_raise h]; rfl⟩

/-- A guard after coprocessor 1: either of the two raises. -/
theorem TakesBar.after_cop1 {s : State} {x : Access State} (h : TakesBar s x) :
    TakesBar s ((needCop1 s).bind fun _ => x) := by
  cases hc : s.usable1
  · exact .cop1 _ hc
  · rw [needCop1_ok hc]; exact h

/-- A condition code other than 0 needs the SGI-extended instructions. -/
theorem needXxForCc_other (s : State) {cc : CC} (h : cc ≠ 0) : needXxForCc s cc = needXx s := by
  rw [needXxForCc, if_neg h]

/-- A barred instruction takes its exception and does nothing else, whatever the hazard record holds (R572, R590). -/
theorem exec_barred (i : Instr) (s : State) (h : s.barred i = true) :
    ∃ e : Exc, e.bars ∧ exec i s = .next (takeException e s) := by
  rw [State.barred] at h
  cases i <;>
    simp only [guardOf, Guard.passes, Bool.not_true, Bool.false_eq_true, Bool.not_eq_true', Bool.and_eq_false_iff,
      Bool.or_eq_false_iff] at h <;>
    first
    | exact h.elim
    | exact TakesBar.ux _ h
    | exact TakesBar.xx _ h
    | exact TakesBar.cop0 _ h
    | exact TakesBar.cop1 _ h
    | exact h.elim (TakesBar.cop1 _) fun h => (TakesBar.ux _ h).after_cop1
    | exact h.elim (TakesBar.cop1 _) fun h => (TakesBar.xx _ h).after_cop1
    | exact h.elim (TakesBar.cop1 _) fun ⟨h0, h⟩ =>
        TakesBar.after_cop1 (by rw [needXxForCc_other s (by simpa using h0)]; exact .xx _ h)

/-- The record of earlier instructions decides nothing about what is enabled. -/
@[simp] theorem State.barred_recordHazards (s : State) (i j : Instr) : (s.recordHazards i).barred j = s.barred j := rfl

end Sys2Proof.Machine
end

