-- ==== Sys2Proof/Laws/Layout.lean ====
section
/-! SUPPORT. Where the free positions of register fields can stand (R7, log 2). -/

namespace Sys2Proof.Machine
open Sys2Proof

/-- TLBSet.P stands above SET and inside the register. -/
theorem Layout.tlbSetP_range : 2 ≤ Layout.tlbSetP ∧ Layout.tlbSetP < 64 := by unfold Layout.tlbSetP; omega

/-- A picked position is one of the list. -/
theorem Layout.pick_mem {ps : List Nat} (n : Nat) (h : ps ≠ []) : Layout.pick ps n ∈ ps := by
  have hl := Nat.mod_lt n (List.length_pos_iff.mpr h)
  rw [Layout.pick, List.getD_eq_getElem _ _ hl]
  exact List.getElem_mem hl

theorem Layout.configSpare_nodup : Layout.configSpare.Nodup := by decide

theorem Layout.configSpare_length : Layout.configSpare.length = 55 := by decide

/-- A list from which fewer elements than it has are taken is not empty. -/
theorem Layout.erase_ne_nil {ps : List Nat} (n : Nat) (h : 1 < ps.length) : ps.erase n ≠ [] := by
  intro e
  have := List.length_erase (a := n) (l := ps)
  rw [e] at this
  split at this <;> simp at this <;> omega

theorem Layout.configPm_mem : Layout.configPm ∈ Layout.configSpare := Layout.pick_mem _ (by decide)

theorem Layout.configIce_mem : Layout.configIce ∈ Layout.configSpare.erase Layout.configPm :=
  Layout.pick_mem _ (Layout.erase_ne_nil _ (by decide))

theorem Layout.configSmm_mem : Layout.configSmm ∈ (Layout.configSpare.erase Layout.configPm).erase Layout.configIce := by
  refine Layout.pick_mem _ (Layout.erase_ne_nil _ ?_)
  rw [List.length_erase_of_mem Layout.configPm_mem, Layout.configSpare_length]
  decide

/-- The free fields of Config stand on spare bits, each on its own. -/
theorem Layout.config_positions :
    Layout.configPm ∈ Layout.configSpare ∧ Layout.configIce ∈ Layout.configSpare ∧ Layout.configSmm ∈ Layout.configSpare ∧
    Layout.configIce ≠ Layout.configPm ∧ Layout.configSmm ≠ Layout.configPm ∧ Layout.configSmm ≠ Layout.configIce := by
  have hi := (Layout.configSpare_nodup.mem_erase_iff).mp Layout.configIce_mem
  have hn := Layout.configSpare_nodup.erase Layout.configPm
  have hs := hn.mem_erase_iff.mp Layout.configSmm_mem
  have hs' := Layout.configSpare_nodup.mem_erase_iff.mp hs.2
  exact ⟨Layout.configPm_mem, hi.2, hs'.2, hi.1, hs'.1, hs.1⟩

/-- Every spare bit is inside the register and in none of DB, IB, DC, IC and BE. -/
theorem Layout.configSpare_range :
    ∀ n ∈ Layout.configSpare, n < 64 ∧ n ≠ Layout.configDb ∧ n ≠ Layout.configIb ∧ ¬(6 ≤ n ∧ n < 12) ∧ n ≠ Layout.configBe := by
  decide

end Sys2Proof.Machine
end

