-- ==== Sys2Proof/Laws/Lines.lean ====
section
/-! SUPPORT. What each reference to memory leaves in the lines of the data cache and in the streaming cache: one lemma per
operation (R56, R151, R153, R154). -/

namespace Sys2Proof.Machine

/-! ## One line, one sector -/

theorem State.dline_setDline (s : State) (k j : Nat) (l : DCacheLine) :
    (s.setDline k l).dline j = if j = k then l else s.dline j := CMap.get_set _ _ _ _ _

theorem State.dline_of_dcache {s t : State} (h : t.dcache = s.dcache) (j : Nat) : t.dline j = s.dline j := by
  unfold State.dline; rw [h]

/-- The synonyms of all sectors after one is set. -/
theorem State.scache_setSynonym (s : State) (pa : PAddr) (vs : BitVec 4) (q : Nat) :
    CMap.get scacheEmpty (s.setSynonym pa vs).scache q =
      if q = sectorOf pa then some vs else CMap.get scacheEmpty s.scache q :=
  CMap.get_set scacheEmpty s.scache (sectorOf pa) q (some vs)

theorem State.dcache_llbit (s : State) (b : Bool) : ({ s with llbit := b } : State).dcache = s.dcache := rfl

theorem State.scache_llbit (s : State) (b : Bool) : ({ s with llbit := b } : State).scache = s.scache := rfl

theorem State.dcache_setSynonym (s : State) (pa : PAddr) (vs : BitVec 4) : (s.setSynonym pa vs).dcache = s.dcache := rfl

theorem State.dcache_dropSector (s : State) (vs : BitVec 4) (pa : PAddr) : (s.dropSector vs pa).dcache =
    ((((s.dropLine vs pa 0).dropLine vs pa 1).dropLine vs pa 2).dropLine vs pa 3).dcache := by
  unfold State.dropSector
  exact State.dcache_llbit _ _

/-- A line of the data cache after a copy is dropped where `c` says so. -/
def DCacheLine.dropIf (l : DCacheLine) (pa : PAddr) (c : Bool) : DCacheLine :=
  if c && l.tag == dcacheTag pa then { l with valid := 0 } else l

theorem DCacheLine.dropIf_dropIf (l : DCacheLine) (pa : PAddr) (c d : Bool) :
    (l.dropIf pa c).dropIf pa d = l.dropIf pa (c || d) := by
  unfold DCacheLine.dropIf
  cases c <;> cases d <;> simp
  split <;> simp_all

theorem State.dline_dropLine (s : State) (vs : BitVec 4) (pa : PAddr) (i j : Nat) :
    (s.dropLine vs pa i).dline j = (s.dline j).dropIf pa (decide (j = synonymLine vs pa i)) := by
  unfold State.dropLine DCacheLine.dropIf
  dsimp only
  split
  · next h =>
    rw [State.dline_setDline]
    by_cases e : j = synonymLine vs pa i
    · subst e; simp [h]
    · simp [e]
  · next h =>
    by_cases e : j = synonymLine vs pa i
    · subst e; simp [h]
    · simp [e]

/-- A line after the copies of a sector are dropped. -/
theorem State.dline_dropSector (s : State) (vs : BitVec 4) (pa : PAddr) (j : Nat) :
    (s.dropSector vs pa).dline j =
      (s.dline j).dropIf pa (decide (j / 4 = vs.toNat % 4 * 32 + pa.toNat / 128 % 32)) := by
  rw [State.dline_of_dcache (s.dcache_dropSector vs pa)]
  rw [State.dline_dropLine, State.dline_dropLine, State.dline_dropLine, State.dline_dropLine, DCacheLine.dropIf_dropIf,
    DCacheLine.dropIf_dropIf, DCacheLine.dropIf_dropIf]
  refine congrArg _ ?_
  rw [Bool.eq_iff_iff]
  simp only [Bool.or_eq_true, decide_eq_true_eq]
  unfold synonymLine
  omega

/-! ## The repair of a virtual synonym (R154) -/

/-- Where the sector is held under no other synonym no line changes. -/
theorem Repaired.same {s : State} {va : Word} {tr : Translation}
    (h : tr.cachable = true → ∀ vs, s.synonym tr.pa = some vs → vs = va.extractLsb' 12 4) (j : Nat) :
    Repaired s va tr j (s.dline j) :=
  ⟨fun ⟨⟨hc, vs, hv, hn, _⟩, _⟩ => absurd (h hc vs hv) hn, fun _ => rfl⟩

/-- The copies under the synonym that the sector is held under are dropped. -/
theorem Repaired.dropSector {s : State} {va : Word} {tr : Translation} {vs : BitVec 4} (hc : tr.cachable = true)
    (h : s.synonym tr.pa = some vs) (hn : vs ≠ va.extractLsb' 12 4) (j : Nat) :
    Repaired s va tr j ((s.dropSector vs tr.pa).dline j) := by
  rw [State.dline_dropSector]
  unfold DCacheLine.dropIf
  constructor
  · rintro ⟨⟨-, x, hx, -, hj⟩, ht⟩
    obtain rfl : vs = x := Option.some.inj (h.symm.trans hx)
    rw [if_pos (by rw [Bool.and_eq_true, decide_eq_true_eq, beq_iff_eq]; exact ⟨hj, ht⟩)]
  · intro hs
    rw [if_neg]
    rw [Bool.and_eq_true, decide_eq_true_eq, beq_iff_eq]
    exact fun ⟨hj, ht⟩ => hs ⟨⟨hc, vs, h, hn, hj⟩, ht⟩

theorem State.repairSynonym_repaired (s : State) (va : Word) {tr : Translation} (hc : tr.cachable = true) (j : Nat) :
    Repaired s va tr j ((s.repairSynonym va tr.pa).dline j) := by
  unfold State.repairSynonym
  split
  · next h =>
    rw [State.dline_of_dcache (s.dcache_setSynonym tr.pa (synonymOf va))]
    exact .same (fun _ vs hv => by rw [h] at hv; cases hv) j
  · next vs h =>
    split
    · next e => exact .same (fun _ x hx => by rw [h] at hx; cases hx; exact e) j
    · next e =>
      rw [State.dline_of_dcache (State.dcache_setSynonym _ tr.pa (synonymOf va))]
      exact .dropSector hc h e j

/-- The sector is held under the reference's synonym, and no other one changes. -/
theorem Referenced.of_setSynonym {s t u : State} {va : Word} {tr : Translation} (hc : tr.cachable = true)
    (hu : u.scache = s.scache) (ht : t.scache = (u.setSynonym tr.pa (synonymOf va)).scache) : Referenced s va tr t := by
  refine ⟨fun h => absurd (hc.symm.trans h) (by decide), fun _ => ?_⟩
  unfold State.synonym
  rw [ht]
  refine ⟨(u.scache_setSynonym tr.pa (synonymOf va) (sectorOf tr.pa)).trans (if_pos rfl), fun q hq => ?_⟩
  rw [u.scache_setSynonym, if_neg (show ¬q = sectorOf tr.pa from hq), hu]

/-- The sector is held under the reference's synonym already. -/
theorem Referenced.of_held {s t : State} {va : Word} {tr : Translation} (ht : t.scache = s.scache)
    (h : tr.cachable = true → s.synonym tr.pa = some (va.extractLsb' 12 4)) : Referenced s va tr t := by
  refine ⟨fun _ => ht, fun hc => ?_⟩
  unfold State.synonym
  rw [ht]
  exact ⟨h hc, fun _ _ => rfl⟩

theorem State.scache_dropSector (s : State) (vs : BitVec 4) (pa : PAddr) : (s.dropSector vs pa).scache = s.scache := by
  obtain ⟨d, e, -⟩ := (((s.dropLine_lineOnly vs pa 0).trans (State.dropLine_lineOnly _ vs pa 1)).trans
    (State.dropLine_lineOnly _ vs pa 2)).trans (State.dropLine_lineOnly _ vs pa 3)
  unfold State.dropSector
  rw [e]

theorem State.repairSynonym_referenced (s : State) (va : Word) {tr : Translation} (hc : tr.cachable = true) {t : State}
    (ht : t.scache = (s.repairSynonym va tr.pa).scache) : Referenced s va tr t := by
  unfold State.repairSynonym at ht
  split at ht
  · exact .of_setSynonym hc rfl ht
  · next vs h =>
    split at ht
    · next e => exact .of_held ht fun _ => by rw [h, e]; rfl
    · exact .of_setSynonym hc (s.scache_dropSector vs tr.pa) ht

/-! ## The bytes of a line and its valid bits -/

theorem PutAt.putBytes (data : Vector Byte 32) (off : Nat) (bs : List Byte) : PutAt data (putBytes data off bs) off bs := by
  induction bs generalizing data off with
  | nil =>
    intro i _
    rw [if_neg (by simp only [List.length_nil]; omega)]
    rfl
  | cons b bs ih =>
    intro i hi
    unfold Sys2Proof.Machine.putBytes
    rw [ih _ _ i hi]
    have hg : (data.setIfInBounds off b).toList.getD i 0 = if off = i then b else data.toList.getD i 0 := by
      rw [Vector.toList_setIfInBounds, List.getD_eq_getElem?_getD, List.getElem?_set, List.getD_eq_getElem?_getD]
      split
      · next h => subst h; simp [hi]
      · rfl
    rw [hg]
    simp only [List.length_cons]
    by_cases h : off = i
    · subst h
      rw [if_neg (by omega), if_pos rfl, if_pos (by omega), Nat.sub_self]; rfl
    · by_cases k : off + 1 ≤ i ∧ i < off + 1 + bs.length
      · rw [if_pos k, if_pos (by omega), show i - off = i - (off + 1) + 1 by omega]; rfl
      · rw [if_neg k, if_neg h, if_neg (by omega)]

theorem getLsbD_lowMask : ∀ a : Fin 9, ∀ w : Fin 8, ((1#8 <<< a.val) - 1).getLsbD w.val = decide (w.val < a.val) := by
  decide

/-- The words that bytes of a line touch. -/
theorem getLsbD_wordMask {pa : PAddr} {n w : Nat} (hn : 0 < n) (h : pa.toNat % 32 + n ≤ 32) (hw : w < 8) :
    (wordMask (pa.toNat % 32) n).getLsbD w = true ↔ Touches pa n w := by
  have h1 := getLsbD_lowMask ⟨(pa.toNat % 32 + n - 1) / 4 + 1, by omega⟩ ⟨w, hw⟩
  have h2 := getLsbD_lowMask ⟨pa.toNat % 32 / 4, by omega⟩ ⟨w, hw⟩
  dsimp only at h1 h2
  unfold wordMask Touches
  rw [BitVec.getLsbD_and, BitVec.getLsbD_not, h1, h2]
  simp only [hw, decide_true, Bool.true_and, Bool.and_eq_true, decide_eq_true_eq, Bool.not_eq_true', decide_eq_false_iff_not]
  constructor
  · rintro ⟨a, b⟩
    exact ⟨4 * w - pa.toNat % 32, by omega, by omega⟩
  · rintro ⟨k, a, b⟩
    omega

/-- The valid bits of a line once the words that bytes touch are cleared. -/
theorem getLsbD_cleared (v : BitVec 8) {pa : PAddr} {n w : Nat} (hn : 0 < n) (h : pa.toNat % 32 + n ≤ 32) (hw : w < 8) :
    (v &&& ~~~(wordMask (pa.toNat % 32) n)).getLsbD w = true ↔ v.getLsbD w = true ∧ ¬Touches pa n w := by
  rw [BitVec.getLsbD_and, BitVec.getLsbD_not, ← getLsbD_wordMask hn h hw]
  simp [hw]

theorem State.memoryLine_getD (s : State) (pa : PAddr) {i : Nat} (hi : i < 32) :
    (s.memoryLine pa).toList.getD i 0 = s.physByte (pa.toNat / 32 * 32 + i) := by
  unfold State.memoryLine
  rw [List.getD_eq_getElem?_getD, Vector.getElem?_toList, Vector.getElem?_ofFn, dif_pos hi]
  rfl

theorem State.fillLine_filled (s : State) (va : Word) (pa : PAddr) :
    Filled s pa ((s.fillLine va pa).dline (va.extractLsb' 5 9).toNat) := by
  have e : (s.fillLine va pa).dline (va.extractLsb' 5 9).toNat = _ :=
    (s.dline_setDline (dcacheIndex va) (dcacheIndex va) _).trans (if_pos rfl)
  rw [e]
  exact ⟨rfl, fun i hi hb => (s.memoryLine_getD pa hi).trans (State.physByte_backed hb)⟩

theorem State.bufferLine_buffered (s : State) (va : Word) (pa : PAddr) {bs : List Byte} (hn : 0 < bs.length) :
    Buffered (s.dline (va.extractLsb' 5 9).toNat) pa bs ((s.bufferLine va pa bs).dline (va.extractLsb' 5 9).toNat) := by
  have e : (s.bufferLine va pa bs).dline (va.extractLsb' 5 9).toNat = _ :=
    (s.dline_setDline (dcacheIndex va) (dcacheIndex va) _).trans (if_pos rfl)
  rw [e]
  refine ⟨rfl, rfl, PutAt.putBytes _ _ _, fun h w hw => ?_⟩
  dsimp only
  by_cases ht : (s.dline (dcacheIndex va)).tag = dcacheTag pa
  · rw [if_pos ht, getLsbD_cleared _ hn h hw]
    exact ⟨fun ⟨a, b⟩ => ⟨ht, a, b⟩, fun ⟨_, a, b⟩ => ⟨a, b⟩⟩
  · rw [if_neg ht]
    exact ⟨fun x => by simp at x, fun ⟨x, _⟩ => absurd x ht⟩

/-! ## Integer loads and stores -/

theorem State.dline_fillLine_other (s : State) (va : Word) (pa : PAddr) {j : Nat} (h : j ≠ (va.extractLsb' 5 9).toNat) :
    (s.fillLine va pa).dline j = s.dline j :=
  (s.dline_setDline (dcacheIndex va) j _).trans (if_neg h)

theorem State.dline_bufferLine_other (s : State) (va : Word) (pa : PAddr) (bs : List Byte) {j : Nat}
    (h : j ≠ (va.extractLsb' 5 9).toNat) : (s.bufferLine va pa bs).dline j = s.dline j :=
  (s.dline_setDline (dcacheIndex va) j _).trans (if_neg h)

/-- The caches after an integer load (`LoadedCaches`). -/
theorem State.afterLoad_caches (s : State) (va : Word) (tr : Translation) {n : Nat} (hn : 0 < n) :
    LoadedCaches s va tr n (s.afterLoad va tr n) := by
  have missed : ∀ u, u = (if tr.cachable then (s.repairSynonym va tr.pa).fillLine va tr.pa
      else s.bufferLine va tr.pa (s.physBytes tr.pa.toNat n)) →
      Referenced s va tr u ∧ (∀ j, j ≠ (va.extractLsb' 5 9).toNat → Repaired s va tr j (u.dline j)) ∧
      (tr.cachable = true → Filled s tr.pa (u.dline (va.extractLsb' 5 9).toNat)) ∧
      (tr.cachable = false → ∃ bs, bs.length = n ∧
        (∀ i, i < n → s.backedAt (tr.pa.toNat + i) = true → bs.getD i 0 = Memory.read s.mem (tr.pa.toNat + i)) ∧
        Buffered (s.dline (va.extractLsb' 5 9).toNat) tr.pa bs (u.dline (va.extractLsb' 5 9).toNat)) := by
    rintro u rfl
    by_cases hc : tr.cachable = true
    · rw [if_pos hc]
      refine ⟨s.repairSynonym_referenced va hc rfl, fun j hj => ?_, fun _ => ?_, fun h => absurd hc (by rw [h]; decide)⟩
      · rw [State.dline_fillLine_other _ va tr.pa hj]
        exact s.repairSynonym_repaired va hc j
      · obtain ⟨h1, h2⟩ := (s.repairSynonym va tr.pa).fillLine_filled va tr.pa
        obtain ⟨d, c, b, e, -⟩ := s.repairSynonym_cacheOnly va tr.pa
        refine ⟨h1, fun i hi hb => (h2 i hi ?_).trans ?_⟩
        · rw [e]; exact hb
        · rw [e]
    · rw [if_neg hc]
      refine ⟨.of_held rfl fun h => absurd h hc, fun j hj => ?_, fun h => absurd h hc, fun _ => ?_⟩
      · rw [s.dline_bufferLine_other va tr.pa _ hj]
        exact .same (fun h => absurd h hc) j
      · refine ⟨s.physBytes tr.pa.toNat n, s.physBytes_length _ _, fun i hi hb => ?_, ?_⟩
        · rw [s.physBytes_getD _ _ _ hi]; exact State.physByte_backed hb
        · exact s.bufferLine_buffered va tr.pa (by rw [s.physBytes_length]; exact hn)
  unfold LoadedCaches State.afterLoad
  dsimp only
  by_cases hh : s.dcacheHit va tr.pa n = true
  · rw [if_pos hh]
    unfold State.dcacheHit at hh
    refine ⟨fun hr => ⟨fun _ => ⟨rfl, rfl⟩, fun h => ?_⟩, .inl ⟨rfl, rfl⟩⟩
    rw [if_pos (show s.dcacheReady va = true from hr)] at hh
    exact absurd (h.symm.trans hh) (by decide)
  · rw [if_neg hh]
    refine ⟨fun hr => ⟨fun h => absurd ?_ hh, fun _ => missed _ rfl⟩, .inr (missed _ rfl)⟩
    unfold State.dcacheHit
    rw [if_pos (show s.dcacheReady va = true from hr)]
    exact h

/-- The caches after an integer store (`StoredCaches`). -/
theorem State.storeBytes_caches (s : State) (va : Word) (tr : Translation) {bs : List Byte} (hn : 0 < bs.length) :
    StoredCaches s va tr bs (s.storeBytes va tr bs) := by
  unfold State.storeBytes
  dsimp only
  have hu : ∀ u, u = (if tr.cachable then (s.writeMemory tr.pa bs).repairSynonym va tr.pa else s.writeMemory tr.pa bs) →
      CacheOnly (s.writeMemory tr.pa bs) u ∧ (∀ j, Repaired s va tr j (u.dline j)) ∧
      ∀ t : State, t.scache = u.scache → Referenced s va tr t := by
    rintro u rfl
    by_cases hc : tr.cachable = true
    · rw [if_pos hc]
      refine ⟨State.repairSynonym_cacheOnly _ _ _, fun j => ?_, fun t ht => ?_⟩
      · exact (s.writeMemory tr.pa bs).repairSynonym_repaired va hc j
      · exact (s.writeMemory tr.pa bs).repairSynonym_referenced va hc ht
    · rw [if_neg hc]
      exact ⟨.refl _, fun j => .same (fun h => absurd h hc) j, fun t ht => .of_held ht fun h => absurd h hc⟩
  generalize (if tr.cachable then (s.writeMemory tr.pa bs).repairSynonym va tr.pa else s.writeMemory tr.pa bs) = u at hu
  obtain ⟨co, hr, hs⟩ := hu u rfl
  have hw : u.dcacheWritten = s.dcacheWritten ∧ u.draws = s.draws := by
    obtain ⟨d, c, b, e, -⟩ := co
    rw [e]; exact ⟨rfl, rfl⟩
  have hready : u.dcacheReady va = s.dcacheReady va := by unfold State.dcacheReady; rw [hw.1]
  unfold StoredCaches
  dsimp only
  by_cases hh : u.dcacheHit va tr.pa bs.length = true
  · rw [if_pos hh]
    refine ⟨hs _ rfl, fun j hj => ?_, u.dline (dcacheIndex va), hr _, fun ready => ⟨fun _ => ?_, fun h => ?_⟩, .inl ?_⟩
    · rw [(u.dline_setDline (dcacheIndex va) j _).trans (if_neg hj)]; exact hr j
    · rw [(u.dline_setDline (dcacheIndex va) (va.extractLsb' 5 9).toNat _).trans (if_pos rfl)]
      exact ⟨⟨_, rfl⟩, PutAt.putBytes _ _ _⟩
    · unfold State.dcacheHit at hh
      rw [if_pos (hready.trans ready)] at hh
      exact absurd (h.symm.trans hh) (by decide)
    · rw [(u.dline_setDline (dcacheIndex va) (va.extractLsb' 5 9).toNat _).trans (if_pos rfl)]
      exact ⟨⟨_, rfl⟩, PutAt.putBytes _ _ _⟩
  · rw [if_neg hh]
    have missed : ∀ t, t = (if tr.cachable then u.fillLine va tr.pa else u.bufferLine va tr.pa bs) →
        Referenced s va tr t ∧ (∀ j, j ≠ (va.extractLsb' 5 9).toNat → Repaired s va tr j (t.dline j)) ∧
        (tr.cachable = true → Filled t tr.pa (t.dline (va.extractLsb' 5 9).toNat)) ∧
        (tr.cachable = false → Buffered (u.dline (dcacheIndex va)) tr.pa bs (t.dline (va.extractLsb' 5 9).toNat)) := by
      rintro t rfl
      by_cases hc : tr.cachable = true
      · rw [if_pos hc]
        refine ⟨hs _ rfl, fun j hj => ?_, fun _ => u.fillLine_filled va tr.pa, fun h => absurd hc (by rw [h]; decide)⟩
        rw [u.dline_fillLine_other va tr.pa hj]; exact hr j
      · rw [if_neg hc]
        refine ⟨hs _ rfl, fun j hj => ?_, fun h => absurd h hc, fun _ => u.bufferLine_buffered va tr.pa hn⟩
        rw [u.dline_bufferLine_other va tr.pa bs hj]; exact hr j
    generalize (if tr.cachable then u.fillLine va tr.pa else u.bufferLine va tr.pa bs) = t at missed
    obtain ⟨h1, h2, h3, h4⟩ := missed t rfl
    refine ⟨h1, h2, u.dline (dcacheIndex va), hr _, fun ready => ⟨fun h => absurd ?_ hh, fun _ => ⟨h3, h4⟩⟩, .inr ⟨h3, h4⟩⟩
    unfold State.dcacheHit
    rw [if_pos (hready.trans ready)]
    exact h

/-! ## Floating-point loads and stores -/

/-- What a floating-point reference does to the streaming cache leaves both caches, or takes the sector over. -/
theorem State.floatSynonym_caches (s : State) (va : Word) (tr : Translation) :
    ((s.floatSynonym va tr).dcache = s.dcache ∧ (s.floatSynonym va tr).scache = s.scache) ∨
    (tr.cachable = true ∧ (s.floatSynonym va tr).dcache = (s.repairSynonym va tr.pa).dcache ∧
      (s.floatSynonym va tr).scache = (s.repairSynonym va tr.pa).scache) := by
  unfold State.floatSynonym State.repairSynonym
  split
  · next hc =>
    split
    · exact .inr ⟨hc, rfl, rfl⟩
    · split
      · exact .inl ⟨rfl, rfl⟩
      · split
        · exact .inr ⟨hc, rfl, rfl⟩
        · split
          · exact .inl ⟨rfl, rfl⟩
          · exact .inl ⟨rfl, rfl⟩
  · exact .inl ⟨rfl, rfl⟩

/-- A sector that is not held gets the reference's synonym. -/
theorem State.floatSynonym_none (s : State) (va : Word) {tr : Translation} (hc : tr.cachable = true)
    (h : s.synonym tr.pa = none) : (s.floatSynonym va tr).synonym tr.pa = some (va.extractLsb' 12 4) := by
  unfold State.floatSynonym
  rw [if_pos hc, h]
  exact (s.scache_setSynonym tr.pa (synonymOf va) (sectorOf tr.pa)).trans (if_pos rfl)

/-- The caches after a floating-point load (`FloatLoadedCaches`). -/
theorem State.loadFloat_caches (s : State) (va : Word) (tr : Translation) (n : Nat) :
    FloatLoadedCaches s va tr (s.loadFloat va tr n).2 := by
  refine ⟨s.floatSynonym_none va, ?_⟩
  rcases s.floatSynonym_caches va tr with h | ⟨hc, hd, hs⟩
  · exact .inl h
  · refine .inr ⟨s.repairSynonym_referenced va hc hs, fun j => ?_⟩
    have e : (s.loadFloat va tr n).2.dline j = (s.repairSynonym va tr.pa).dline j := State.dline_of_dcache hd j
    rw [e]
    exact s.repairSynonym_repaired va hc j

/-- A line after the words that bytes touch lose their valid bits, where `c` says so and it holds them. -/
def DCacheLine.clearIf (l : DCacheLine) (pa : PAddr) (n : Nat) (c : Bool) : DCacheLine :=
  if c && l.tag == dcacheTag pa then { l with valid := l.valid &&& ~~~(wordMask (pa.toNat % 32) n) } else l

theorem State.dline_clearWords (s : State) (k : Nat) (pa : PAddr) (n j : Nat) :
    (s.clearWords k pa n).dline j = (s.dline j).clearIf pa n (decide (j = k)) := by
  unfold State.clearWords DCacheLine.clearIf
  dsimp only
  split
  · next h =>
    rw [State.dline_setDline]
    by_cases e : j = k
    · subst e; simp [h]
    · simp [e]
  · next h =>
    by_cases e : j = k
    · subst e; simp [h]
    · simp [e]

/-- The other copy that a floating-point store reaches, if any: its line, and that it is reached with SMM = 1 (R154, R160). -/
theorem State.clearSynonymCopy_dline (s : State) (va : Word) (tr : Translation) (n : Nat) :
    ∃ c : Nat → Bool, (∀ j, (s.clearSynonymCopy va tr n).dline j = (s.dline j).clearIf tr.pa n (c j)) ∧
      (∀ j, c j = true → tr.cachable = true ∧ ∃ vs, s.synonym tr.pa = some vs ∧ vs ≠ va.extractLsb' 12 4 ∧
        j / 4 = vs.toNat % 4 * 32 + tr.pa.toNat / 128 % 32) ∧
      (s.configView.smm = true → ∀ j, SynonymCopy s va tr j → j % 4 = tr.pa.toNat / 32 % 4 → c j = true) := by
  unfold State.clearSynonymCopy
  have none : (∀ j, SynonymCopy s va tr j → False) → ∃ c : Nat → Bool,
      (∀ j, s.dline j = (s.dline j).clearIf tr.pa n (c j)) ∧
      (∀ j, c j = true → tr.cachable = true ∧ ∃ vs, s.synonym tr.pa = some vs ∧ vs ≠ va.extractLsb' 12 4 ∧
        j / 4 = vs.toNat % 4 * 32 + tr.pa.toNat / 128 % 32) ∧
      (s.configView.smm = true → ∀ j, SynonymCopy s va tr j → j % 4 = tr.pa.toNat / 32 % 4 → c j = true) :=
    fun h => ⟨fun _ => false, fun j => rfl, fun j h => (by cases h), fun _ j hj => (h j hj).elim⟩
  split
  · next hc =>
    split
    · next hv => exact none fun j ⟨⟨_, x, hx, _⟩, _⟩ => by rw [hv] at hx; cases hx
    · next vs hv =>
      split
      · next he => exact none fun j ⟨⟨_, x, hx, hn, _⟩, _⟩ => by rw [hv] at hx; cases hx; exact hn he
      · next he =>
        split
        · refine ⟨fun j => decide (j = synonymLine vs tr.pa (tr.pa.toNat / 32 % 4)), fun j => s.dline_clearWords _ _ _ j,
            fun j hj => ⟨hc, vs, hv, he, ?_⟩, fun _ j ⟨⟨_, x, hx, _, hj⟩, _⟩ hm => ?_⟩
          · have := of_decide_eq_true hj
            unfold synonymLine at this
            omega
          · rw [hv] at hx; cases hx
            refine decide_eq_true ?_
            unfold synonymLine
            omega
        · next hb =>
          refine ⟨fun _ => false, fun j => rfl, fun j h => (by cases h), fun hm => ?_⟩
          rw [hm] at hb; exact absurd rfl hb
  · next hc => exact none fun j ⟨⟨h, _⟩, _⟩ => hc h

theorem DCacheLine.clearIf_tag (l : DCacheLine) (pa : PAddr) (n : Nat) (c : Bool) : (l.clearIf pa n c).tag = l.tag := by
  unfold DCacheLine.clearIf; split <;> rfl

theorem DCacheLine.dropIf_tag (l : DCacheLine) (pa : PAddr) (c : Bool) : (l.dropIf pa c).tag = l.tag := by
  unfold DCacheLine.dropIf; split <;> rfl

/-- A line that may only have lost valid bits. -/
def DCacheLine.Fewer (l m : DCacheLine) : Prop :=
  ∃ v, m = { l with valid := v } ∧ ∀ w, v.getLsbD w = true → l.valid.getLsbD w = true

theorem DCacheLine.Fewer.refl (l : DCacheLine) : l.Fewer l := ⟨l.valid, rfl, fun _ h => h⟩

theorem DCacheLine.Fewer.trans {l m n : DCacheLine} (h : l.Fewer m) (k : m.Fewer n) : l.Fewer n := by
  obtain ⟨v, rfl, hv⟩ := h
  obtain ⟨w, rfl, hw⟩ := k
  exact ⟨w, rfl, fun i hi => hv i (hw i hi)⟩

theorem DCacheLine.fewer_clearIf (l : DCacheLine) (pa : PAddr) (n : Nat) (c : Bool) : l.Fewer (l.clearIf pa n c) := by
  unfold DCacheLine.clearIf
  split
  · exact ⟨_, rfl, fun w h => by rw [BitVec.getLsbD_and, Bool.and_eq_true] at h; exact h.1⟩
  · exact .refl l

theorem DCacheLine.fewer_dropIf (l : DCacheLine) (pa : PAddr) (c : Bool) : l.Fewer (l.dropIf pa c) := by
  unfold DCacheLine.dropIf
  split
  · exact ⟨_, rfl, fun w h => by simp at h⟩
  · exact .refl l

theorem DCacheLine.Fewer.clear {l m : DCacheLine} (h : l.Fewer m) {w : Nat} (k : l.valid.getLsbD w = false) :
    m.valid.getLsbD w = false := by
  obtain ⟨v, rfl, hv⟩ := h
  exact Bool.eq_false_iff.mpr fun hw => by rw [hv w hw] at k; cases k

theorem DCacheLine.clearIf_other {l : DCacheLine} {pa : PAddr} {n : Nat} {c : Bool} (h : ¬(c = true ∧ l.tag = dcacheTag pa)) :
    l.clearIf pa n c = l := by
  unfold DCacheLine.clearIf
  exact if_neg fun e => h (by rw [Bool.and_eq_true, beq_iff_eq] at e; exact e)

theorem DCacheLine.dropIf_other {l : DCacheLine} {pa : PAddr} {c : Bool} (h : ¬(c = true ∧ l.tag = dcacheTag pa)) :
    l.dropIf pa c = l := by
  unfold DCacheLine.dropIf
  exact if_neg fun e => h (by rw [Bool.and_eq_true, beq_iff_eq] at e; exact e)

theorem DCacheLine.clearIf_held {l : DCacheLine} {pa : PAddr} {n : Nat} {c : Bool} (h : c = true)
    (ht : l.tag = dcacheTag pa) : l.clearIf pa n c = { l with valid := l.valid &&& ~~~(wordMask (pa.toNat % 32) n) } := by
  unfold DCacheLine.clearIf
  exact if_pos (by rw [Bool.and_eq_true, beq_iff_eq]; exact ⟨h, ht⟩)

/-- The lines after a floating-point reference: those that may hold a copy under the sector's other synonym may be dropped. -/
theorem State.floatSynonym_dline (s : State) (va : Word) (tr : Translation) :
    ∃ d : Nat → Bool, (∀ j, (s.floatSynonym va tr).dline j = (s.dline j).dropIf tr.pa (d j)) ∧
      ∀ j, d j = true → tr.cachable = true ∧ ∃ vs, s.synonym tr.pa = some vs ∧ vs ≠ va.extractLsb' 12 4 ∧
        j / 4 = vs.toNat % 4 * 32 + tr.pa.toNat / 128 % 32 := by
  have same : ∀ t : State, t.dcache = s.dcache → ∃ d : Nat → Bool, (∀ j, t.dline j = (s.dline j).dropIf tr.pa (d j)) ∧
      ∀ j, d j = true → tr.cachable = true ∧ ∃ vs, s.synonym tr.pa = some vs ∧ vs ≠ va.extractLsb' 12 4 ∧
        j / 4 = vs.toNat % 4 * 32 + tr.pa.toNat / 128 % 32 :=
    fun t h => ⟨fun _ => false, fun j => State.dline_of_dcache h j, fun j h => (by cases h)⟩
  unfold State.floatSynonym
  split
  · next hc =>
    split
    · exact same _ rfl
    · next vs hv =>
      split
      · exact same _ rfl
      · next he =>
        split
        · refine ⟨fun j => decide (j / 4 = vs.toNat % 4 * 32 + tr.pa.toNat / 128 % 32), fun j => ?_,
            fun j hj => ⟨hc, vs, hv, he, of_decide_eq_true hj⟩⟩
          rw [State.dline_of_dcache (State.dcache_setSynonym _ tr.pa (synonymOf va)), State.dline_dropSector]
        · split
          · exact same _ rfl
          · exact same _ rfl
  · exact same _ rfl

/-- The caches after a floating-point store (`FloatStoredCaches`). -/
theorem State.floatStoreBytes_caches (s : State) (va : Word) (tr : Translation) {bs : List Byte} (hn : 0 < bs.length) :
    FloatStoredCaches s va tr bs.length (s.floatStoreBytes va tr bs) := by
  unfold State.floatStoreBytes
  dsimp only
  have h1 := fun j => (s.writeMemory tr.pa bs).dline_clearWords (dcacheIndex va) tr.pa bs.length j
  have hs1 : ((s.writeMemory tr.pa bs).clearWords (dcacheIndex va) tr.pa bs.length).scache = s.scache ∧
      ((s.writeMemory tr.pa bs).clearWords (dcacheIndex va) tr.pa bs.length).configView = s.configView := by
    obtain ⟨d, e, -⟩ := (s.writeMemory tr.pa bs).clearWords_lineOnly (dcacheIndex va) tr.pa bs.length
    rw [e]; exact ⟨rfl, rfl⟩
  generalize (s.writeMemory tr.pa bs).clearWords (dcacheIndex va) tr.pa bs.length = u1 at h1 hs1
  obtain ⟨c, h2, hc, hm⟩ := u1.clearSynonymCopy_dline va tr bs.length
  have hs2 : (u1.clearSynonymCopy va tr bs.length).scache = s.scache := by
    obtain ⟨d, e, -⟩ := u1.clearSynonymCopy_lineOnly va tr bs.length
    rw [e]; exact hs1.1
  generalize u1.clearSynonymCopy va tr bs.length = u2 at h2 hs2
  obtain ⟨d, h3, hd⟩ := u2.floatSynonym_dline va tr
  have hs3 := u2.floatSynonym_caches va tr
  have hnew : TakesNewSector s va tr (u2.floatSynonym va tr) := fun hc h =>
    u2.floatSynonym_none va hc (by unfold State.synonym at h ⊢; rw [hs2]; exact h)
  have href : tr.cachable = true → (u2.floatSynonym va tr).scache = (u2.repairSynonym va tr.pa).scache →
      Referenced s va tr (u2.floatSynonym va tr) := by
    intro hc hs
    have h := u2.repairSynonym_referenced va hc hs
    unfold Referenced at h ⊢
    rw [hs2] at h
    exact h
  generalize u2.floatSynonym va tr = u3 at h3 hs3 href hnew
  have hl : ∀ j, u3.dline j = (((s.dline j).clearIf tr.pa bs.length (decide (j = dcacheIndex va))).clearIf tr.pa bs.length
      (c j)).dropIf tr.pa (d j) := fun j => by rw [h3, h2, h1]; rfl
  have hsyn1 : u1.synonym tr.pa = s.synonym tr.pa := by unfold State.synonym; rw [hs1.1]
  have hsyn2 : u2.synonym tr.pa = s.synonym tr.pa := by unfold State.synonym; rw [hs2]
  have htag1 : ∀ j, (u1.dline j).tag = (s.dline j).tag := fun j => by rw [h1]; exact DCacheLine.clearIf_tag _ _ _ _
  have hcopy : ∀ j, c j = true ∨ d j = true → (s.dline j).tag = dcacheTag tr.pa → SynonymCopy s va tr j := by
    rintro j (h | h) ht
    · have := hc j h; rw [hsyn1] at this; exact ⟨this, ht⟩
    · have := hd j h; rw [hsyn2] at this; exact ⟨this, ht⟩
  have keep : ∀ j, ¬SynonymCopy s va tr j →
      u3.dline j = (s.dline j).clearIf tr.pa bs.length (decide (j = dcacheIndex va)) := fun j hj => by
    rw [hl, DCacheLine.clearIf_other, DCacheLine.dropIf_other]
    · exact fun ⟨h, ht⟩ => hj (hcopy j (.inr h) (by rw [DCacheLine.clearIf_tag] at ht; exact ht))
    · exact fun ⟨h, ht⟩ => hj (hcopy j (.inl h) (by rw [DCacheLine.clearIf_tag] at ht; exact ht))
  have hk0 : decide ((va.extractLsb' 5 9).toNat = dcacheIndex va) = true := decide_eq_true rfl
  refine ⟨hnew, ?_, fun j => ?_, fun j hj hn => ?_, fun hf hk => ⟨fun w hw => ?_, fun hn' w hw ht => ?_⟩, fun hf hsmm j hj hm4 w hw => ?_⟩
  · rcases hs3 with ⟨-, h⟩ | ⟨hc, -, h⟩
    · exact .inl (h.trans hs2)
    · exact .inr (href hc h)
  · rw [hl]
    exact (((s.dline j).fewer_clearIf _ _ _).trans (DCacheLine.fewer_clearIf _ _ _ _)).trans (DCacheLine.fewer_dropIf _ _ _)
  · rw [keep j hn, DCacheLine.clearIf_other]
    rintro ⟨h, ht⟩
    obtain rfl := of_decide_eq_true h
    exact hj.elim (fun h => h rfl) fun h => h ht
  · rw [hl]
    refine ((DCacheLine.fewer_clearIf _ _ _ _).trans (DCacheLine.fewer_dropIf _ _ _)).clear ?_
    rw [DCacheLine.clearIf_held hk0 hk]
    have h8 : w < 8 := by obtain ⟨k, a, b⟩ := hw; omega
    exact Bool.eq_false_iff.mpr fun h => ((getLsbD_cleared _ hn hf h8).mp h).2 hw
  · rw [keep _ hn', DCacheLine.clearIf_held hk0 hk]
    refine Bool.eq_iff_iff.mpr ⟨fun h => ((getLsbD_cleared _ hn hf hw).mp h).1, fun h => (getLsbD_cleared _ hn hf hw).mpr ⟨h, ht⟩⟩
  · rw [hl]
    have hc' : c j = true := by
      refine hm (hs1.2 ▸ hsmm) j ?_ hm4
      obtain ⟨a, b⟩ := hj
      refine ⟨?_, (htag1 j).trans b⟩
      rw [hsyn1]; exact a
    refine (DCacheLine.fewer_dropIf _ _ _).clear ?_
    rw [DCacheLine.clearIf_held hc' ((DCacheLine.clearIf_tag _ _ _ _).trans hj.2)]
    have h8 : w < 8 := by obtain ⟨k, a, b⟩ := hw; omega
    exact Bool.eq_false_iff.mpr fun h => ((getLsbD_cleared _ hn hf h8).mp h).2 hw

/-! ## The state an instruction completes in -/

/-- What a load leaves depends on the two caches alone. -/
theorem LoadedCaches.congr {s t u : State} {va : Word} {tr : Translation} {n : Nat} (hd : u.dcache = t.dcache)
    (hs : u.scache = t.scache) (h : LoadedCaches s va tr n t) : LoadedCaches s va tr n u := by
  unfold LoadedCaches Referenced State.synonym at h ⊢
  simp only [State.dline_of_dcache hd, hd, hs]
  exact h

theorem FloatLoadedCaches.congr {s t u : State} {va : Word} {tr : Translation} (hd : u.dcache = t.dcache)
    (hs : u.scache = t.scache) (h : FloatLoadedCaches s va tr t) : FloatLoadedCaches s va tr u := by
  unfold FloatLoadedCaches TakesNewSector Referenced State.synonym at h ⊢
  simp only [State.dline_of_dcache hd, hd, hs]
  exact h

theorem FloatStoredCaches.congr {s t u : State} {va : Word} {tr : Translation} {n : Nat} (hd : u.dcache = t.dcache)
    (hs : u.scache = t.scache) (h : FloatStoredCaches s va tr n t) : FloatStoredCaches s va tr n u := by
  unfold FloatStoredCaches TakesNewSector Referenced State.synonym at h ⊢
  simp only [State.dline_of_dcache hd, hs]
  exact h

/-- What a store leaves depends on the two caches and memory. -/
theorem StoredCaches.congr {s t u : State} {va : Word} {tr : Translation} {bs : List Byte} (hd : u.dcache = t.dcache)
    (hs : u.scache = t.scache) (hm : u.mem = t.mem) (hp : u.physMap = t.physMap) (h : StoredCaches s va tr bs t) :
    StoredCaches s va tr bs u := by
  unfold StoredCaches Referenced State.synonym Filled State.backedAt at h ⊢
  simp only [State.dline_of_dcache hd, hs, hm, hp]
  exact h

/-- The instruction completes in one state. -/
theorem Leaves.of_exec {i : Instr} {s t : State} {p : State → Prop} (h : exec i s = .next t) (hp : p t) : Leaves i s p :=
  fun u hu => by
    obtain rfl : t = u := Host.Outcome.next.inj (h.symm.trans hu)
    exact hp

/-- A load into a general register leaves the caches as `State.afterLoad` does. -/
theorem Leaves.of_load {i : Instr} {s : State} {va : Word} {tr : Translation} {n : Nat} {rt : Reg} {v : Word} (hn : 0 < n)
    (h : exec i s = .next ((s.loadInt va tr n).2.setReg rt v).advance) : Leaves i s (LoadedCaches s va tr n) := by
  refine .of_exec h ((s.afterLoad_caches va tr hn).congr ?_ ?_)
  · unfold State.setReg; split <;> rfl
  · unfold State.setReg; split <;> rfl

/-- An integer store leaves the caches as `State.storeBytes` does. -/
theorem Leaves.of_store {i : Instr} {s : State} {va : Word} {tr : Translation} {n : Nat} {v : Word} (hn : 0 < n)
    (h : exec i s = .next (s.storeInt va tr n v).advance) :
    Leaves i s (StoredCaches s va tr (storedBytes s.bigEndian n v)) :=
  .of_exec h ((s.storeBytes_caches va tr (by rw [storedBytes_length]; exact hn)).congr rfl rfl rfl rfl)

/-- A 64-bit floating-point load leaves the caches as `State.floatSynonym` does. -/
theorem Leaves.of_loadFpr {i : Instr} {s : State} {va : Word} {tr : Translation} {n : Nat} {r : Reg} {v : Word}
    (h : exec i s = .next ((s.loadFloat va tr n).2.moveFpr r v).advance) : Leaves i s (FloatLoadedCaches s va tr) :=
  .of_exec h ((s.loadFloat_caches va tr n).congr rfl rfl)

/-- A 32-bit floating-point load leaves the caches as `State.floatSynonym` does. -/
theorem Leaves.of_loadFprWord {i : Instr} {s : State} {va : Word} {tr : Translation} {n : Nat} {r : Reg} {v : BitVec 32}
    (h : exec i s = .next ((s.loadFloat va tr n).2.moveFprWord r v).advance) : Leaves i s (FloatLoadedCaches s va tr) :=
  .of_exec h ((s.loadFloat_caches va tr n).congr rfl rfl)

/-- A floating-point store leaves the caches as `State.floatStoreBytes` does. -/
theorem Leaves.of_storeFloat {i : Instr} {s : State} {va : Word} {tr : Translation} {n : Nat} {v : Word} (hn : 0 < n)
    (h : exec i s = .next (s.storeFloat va tr n v).advance) : Leaves i s (FloatStoredCaches s va tr n) := by
  have hc := s.floatStoreBytes_caches va tr (bs := storedBytes s.bigEndian n v) (by rw [storedBytes_length]; exact hn)
  rw [storedBytes_length] at hc
  exact .of_exec h (hc.congr rfl rfl)

end Sys2Proof.Machine
end

