-- ==== Sys2Proof/Laws/Translate.lean ====
section
/-! SUPPORT. What translation and the forming of a data address can answer (R103, R107, R112, R130, R140). -/

namespace Sys2Proof.Machine

/-! ## Translation -/

theorem State.translate_illegal (s : State) (k : AccessKind) {va : Word} (neg : Bool) (h : legalAddress va s.user = false) :
    s.translate k va neg = .raise (k.addressError va) := by simp [State.translate, h]

theorem State.translate_physical (s : State) (k : AccessKind) {va : Word} (neg : Bool) (h : legalAddress va s.user = true)
    (hr : regionOf va = 2) : s.translate k va neg = .ok ⟨va.setWidth 40, va.extractLsb' 59 3⟩ := by
  simp [State.translate, h, hr]

theorem State.translate_mapped (s : State) (k : AccessKind) {va : Word} {neg : Bool} {bits : Nat}
    (h : legalAddress va s.user = true) (hr : regionOf va ≠ 2)
    (hk : pageBitsOf (pageSizeField s.statusView (regionOf va) neg) = some bits) :
    s.translate k va neg = s.translateMapped k va bits := by
  simp only [State.translate, h, Bool.not_true, Bool.false_eq_true, if_false, if_neg hr, hk]

theorem State.translateMapped_miss (s : State) (k : AccessKind) {va : Word} {bits : Nat}
    (h : s.tlbMatches (tlbIndex s.cp0.entryHi.asid va bits) va bits = []) :
    s.translateMapped k va bits =
      .raise (.tlbRefill k.isStore (k.faultAddress va) bits (s.refillSet (tlbIndex s.cp0.entryHi.asid va bits))) := by
  simp [State.translateMapped, h]

theorem State.translateMapped_hit (s : State) (k : AccessKind) {va : Word} {bits : Nat} {set : BitVec 2}
    (h : s.tlbMatches (tlbIndex s.cp0.entryHi.asid va bits) va bits = [set]) :
    s.translateMapped k va bits =
      useEntry k va bits set (s.tlbEntry (tlbIndex s.cp0.entryHi.asid va bits) set).lo s.draws := by
  simp [State.translateMapped, h]

/-- The page sizes are those of R41. -/
theorem pageBitsOf_range {f : BitVec 4} {k : Nat} (h : pageBitsOf f = some k) : 12 ≤ k ∧ k ≤ 24 := by
  unfold pageBitsOf at h
  split at h <;> simp_all <;> omega

/-- What a used entry can raise. -/
theorem useEntry_raise {k : AccessKind} {va : Word} {bits : Nat} {set : BitVec 2} {lo : TlbLo} {n : Nat} {e : Exc}
    (h : useEntry k va bits set lo n = .raise e) :
    e = .tlbInvalid k.isStore (k.faultAddress va) bits set ∨ e = .tlbModified va bits set := by
  unfold useEntry at h
  split at h
  · exact .inl (by simpa using h.symm)
  split at h
  · exact .inr (by simpa using h.symm)
  split at h <;> simp at h

/-- What a translation can raise: an Address Error or one of the three TLB exceptions. -/
theorem State.translate_raise {s : State} {k : AccessKind} {va : Word} {neg : Bool} {e : Exc}
    (h : s.translate k va neg = .raise e) :
    e = k.addressError va ∨ ∃ bits set, 12 ≤ bits ∧ bits ≤ 24 ∧
      (e = .tlbRefill k.isStore (k.faultAddress va) bits set ∨ e = .tlbInvalid k.isStore (k.faultAddress va) bits set ∨
        e = .tlbModified va bits set) := by
  unfold State.translate at h
  split at h
  · exact .inl (by simpa using h.symm)
  split at h
  · simp at h
  split at h
  · simp at h
  rename_i bits hb
  obtain ⟨h1, h2⟩ := pageBitsOf_range hb
  unfold State.translateMapped at h
  dsimp only at h
  split at h
  · exact .inr ⟨bits, _, h1, h2, .inl (by simpa using h.symm)⟩
  · exact .inr ⟨bits, _, h1, h2, .inr (useEntry_raise h)⟩
  · simp at h

/-! ## Data addresses -/

/-- When a data address is usable: it is formed, aligned, and translates. -/
theorem State.dataAddress_ok {s : State} {k : AccessKind} {n : Nat} {base : Reg} {off va : Word} {t : Translation}
    (h : s.dataAddress k n base off = .ok (va, t)) :
    ∃ neg, s.addrCalc k base off = .ok (va, neg) ∧ va.toNat % n = 0 ∧ s.translate k va neg = .ok t := by
  unfold State.dataAddress at h
  obtain ⟨⟨a, neg⟩, ha, h⟩ := Access.bind_eq_ok.mp h
  dsimp only at h
  split at h
  · simp at h
  · rename_i hn
    obtain ⟨u, hu, h⟩ := Access.bind_eq_ok.mp h
    simp only [Access.ok.injEq, Prod.mk.injEq] at h
    obtain ⟨rfl, rfl⟩ := h
    exact ⟨neg, ha, by simpa using hn, hu⟩

/-- A data address that is formed and aligned is what the translation makes of it. -/
theorem State.dataAddress_of_addrCalc {s : State} {k : AccessKind} {n : Nat} {base : Reg} {off va : Word} {neg : Bool}
    {t : Translation} (h : s.addrCalc k base off = .ok (va, neg)) (ha : va.toNat % n = 0)
    (ht : s.translate k va neg = .ok t) : s.dataAddress k n base off = .ok (va, t) := by
  simp [State.dataAddress, h, ha, ht]

theorem State.dataAddress_misaligned {s : State} {k : AccessKind} {n : Nat} {base : Reg} {off va : Word} {neg : Bool}
    (h : s.addrCalc k base off = .ok (va, neg)) (ha : va.toNat % n ≠ 0) :
    s.dataAddress k n base off = .raise (k.addressError va) := by
  simp [State.dataAddress, h, ha]

end Sys2Proof.Machine
end

