-- ==== Sys2Proof/Tests/Slice0.lean ====
section
/-! SUPPORT. The model's own tests: which terms are no instruction, the decoding of every row of the opcode table by words
written out from the spec's encodings, the spec's derived vectors of 95_test_vectors.md section 2 one step each, and for
every obligation with hypotheses a state that meets them. -/

namespace Sys2Proof.Tests

open Sys2Proof Sys2Proof.Machine

/-! ## Well-formed terms (R189) -/

/-- The word of SLL r0, r0, 1 is SSNOP's: the term is ill formed, its neighbours are not. -/
theorem test_wellFormed : Instr.wellFormed (.sll 0 0 1) = false ∧ Instr.wellFormed (.sll 0 0 0) = true ∧
    Instr.wellFormed (.sll 0 1 1) = true ∧ Instr.wellFormed (.sll 1 0 1) = true ∧ Instr.wellFormed .ssnop = true := by
  decide

/-! ## Decoding (R171 to R182): each word is the row's encoding, bit by bit, with operands of its own -/

/-- A word, its bits numbered as the opcode table numbers them, decodes to an instruction whose encoding it is. -/
def reads (p : Nat × Instr) : Bool := decodeTableWord 32 p.1 == some p.2 && (encode p.2).toNat == p.1

/-- SSNOP to DADDI, in the order of the opcode table. -/
theorem test_decode_rows_1_to_20 : List.all (α := Nat × Instr) [
    (0b000000_00000_00000_00000_00001_000000, .ssnop),
    (0b000000_01000_01001_10011_00000_100000, .add 8 9 19),
    (0b000000_01000_01001_10011_00000_100001, .addu 8 9 19),
    (0b000000_01000_01001_10011_00000_100010, .sub 8 9 19),
    (0b000000_01000_01001_10011_00000_100011, .subu 8 9 19),
    (0b000000_01000_01001_10011_00000_101100, .dadd 8 9 19),
    (0b000000_01000_01001_10011_00000_101101, .daddu 8 9 19),
    (0b000000_01000_01001_10011_00000_101110, .dsub 8 9 19),
    (0b000000_01000_01001_10011_00000_101111, .dsubu 8 9 19),
    (0b000000_01000_01001_10011_00000_100100, .and 8 9 19),
    (0b000000_01000_01001_10011_00000_100101, .or 8 9 19),
    (0b000000_01000_01001_10011_00000_100110, .xor 8 9 19),
    (0b000000_01000_01001_10011_00000_100111, .nor 8 9 19),
    (0b000000_01000_01001_10011_00000_101010, .slt 8 9 19),
    (0b000000_01000_01001_10011_00000_101011, .sltu 8 9 19),
    (0b000000_01000_01001_10011_00000_001010, .movz 8 9 19),
    (0b000000_01000_01001_10011_00000_001011, .movn 8 9 19),
    (0b001000_01000_01001_10010_01000_110100, .addi 8 9 0x9234),
    (0b001001_01000_01001_10010_01000_110100, .addiu 8 9 0x9234),
    (0b011000_01000_01001_10010_01000_110100, .daddi 8 9 0x9234)] reads = true := by
  decide

/-- DADDIU to DSLLV, in the order of the opcode table. -/
theorem test_decode_rows_21_to_40 : List.all (α := Nat × Instr) [
    (0b011001_01000_01001_10010_01000_110100, .daddiu 8 9 0x9234),
    (0b001010_01000_01001_10010_01000_110100, .slti 8 9 0x9234),
    (0b001011_01000_01001_10010_01000_110100, .sltiu 8 9 0x9234),
    (0b001100_01000_01001_10010_01000_110100, .andi 8 9 0x9234),
    (0b001101_01000_01001_10010_01000_110100, .ori 8 9 0x9234),
    (0b001110_01000_01001_10010_01000_110100, .xori 8 9 0x9234),
    (0b001111_00000_01000_10010_01000_110100, .lui 8 0x9234),
    (0b000000_00000_01000_01001_10011_000000, .sll 8 9 19),
    (0b000000_00000_01000_01001_10011_000010, .srl 8 9 19),
    (0b000000_00000_01000_01001_10011_000011, .sra 8 9 19),
    (0b000000_00000_01000_01001_10011_111000, .dsll 8 9 19),
    (0b000000_00000_01000_01001_10011_111010, .dsrl 8 9 19),
    (0b000000_00000_01000_01001_10011_111011, .dsra 8 9 19),
    (0b000000_00000_01000_01001_10011_111100, .dsll32 8 9 19),
    (0b000000_00000_01000_01001_10011_111110, .dsrl32 8 9 19),
    (0b000000_00000_01000_01001_10011_111111, .dsra32 8 9 19),
    (0b000000_01000_01001_10011_00000_000100, .sllv 8 9 19),
    (0b000000_01000_01001_10011_00000_000110, .srlv 8 9 19),
    (0b000000_01000_01001_10011_00000_000111, .srav 8 9 19),
    (0b000000_01000_01001_10011_00000_010100, .dsllv 8 9 19)] reads = true := by
  decide

/-- DSRLV to LHU, in the order of the opcode table. -/
theorem test_decode_rows_41_to_60 : List.all (α := Nat × Instr) [
    (0b000000_01000_01001_10011_00000_010110, .dsrlv 8 9 19),
    (0b000000_01000_01001_10011_00000_010111, .dsrav 8 9 19),
    (0b000000_01000_10100_10011_00000_000001, .movf 8 5 19),
    (0b000000_01000_10101_10011_00000_000001, .movt 8 5 19),
    (0b000000_01000_01001_00000_00000_011000, .mult 8 9),
    (0b000000_01000_01001_00000_00000_011001, .multu 8 9),
    (0b000000_01000_01001_00000_00000_011010, .div 8 9),
    (0b000000_01000_01001_00000_00000_011011, .divu 8 9),
    (0b000000_01000_01001_00000_00000_011100, .dmult 8 9),
    (0b000000_01000_01001_00000_00000_011101, .dmultu 8 9),
    (0b000000_01000_01001_00000_00000_011110, .ddiv 8 9),
    (0b000000_01000_01001_00000_00000_011111, .ddivu 8 9),
    (0b000000_00000_00000_01000_00000_010000, .mfhi 8),
    (0b000000_01000_00000_00000_00000_010001, .mthi 8),
    (0b000000_00000_00000_01000_00000_010010, .mflo 8),
    (0b000000_01000_00000_00000_00000_010011, .mtlo 8),
    (0b100000_01000_01001_10010_01000_110100, .lb 8 9 0x9234),
    (0b100100_01000_01001_10010_01000_110100, .lbu 8 9 0x9234),
    (0b100001_01000_01001_10010_01000_110100, .lh 8 9 0x9234),
    (0b100101_01000_01001_10010_01000_110100, .lhu 8 9 0x9234)] reads = true := by
  decide

/-- LW to SYNC, in the order of the opcode table. -/
theorem test_decode_rows_61_to_80 : List.all (α := Nat × Instr) [
    (0b100011_01000_01001_10010_01000_110100, .lw 8 9 0x9234),
    (0b100111_01000_01001_10010_01000_110100, .lwu 8 9 0x9234),
    (0b110111_01000_01001_10010_01000_110100, .ld 8 9 0x9234),
    (0b101000_01000_01001_10010_01000_110100, .sb 8 9 0x9234),
    (0b101001_01000_01001_10010_01000_110100, .sh 8 9 0x9234),
    (0b101011_01000_01001_10010_01000_110100, .sw 8 9 0x9234),
    (0b111111_01000_01001_10010_01000_110100, .sd 8 9 0x9234),
    (0b100010_01000_01001_10010_01000_110100, .lwl 8 9 0x9234),
    (0b100110_01000_01001_10010_01000_110100, .lwr 8 9 0x9234),
    (0b101010_01000_01001_10010_01000_110100, .swl 8 9 0x9234),
    (0b101110_01000_01001_10010_01000_110100, .swr 8 9 0x9234),
    (0b011010_01000_01001_10010_01000_110100, .ldl 8 9 0x9234),
    (0b011011_01000_01001_10010_01000_110100, .ldr 8 9 0x9234),
    (0b101100_01000_01001_10010_01000_110100, .sdl 8 9 0x9234),
    (0b101101_01000_01001_10010_01000_110100, .sdr 8 9 0x9234),
    (0b110000_01000_01001_10010_01000_110100, .ll 8 9 0x9234),
    (0b110100_01000_01001_10010_01000_110100, .lld 8 9 0x9234),
    (0b111000_01000_01001_10010_01000_110100, .sc 8 9 0x9234),
    (0b111100_01000_01001_10010_01000_110100, .scd 8 9 0x9234),
    (0b000000_00000_00000_00000_01000_001111, .sync 8)] reads = true := by
  decide

/-- PREF to BLTZALL, in the order of the opcode table. -/
theorem test_decode_rows_81_to_100 : List.all (α := Nat × Instr) [
    (0b110011_01000_01001_10010_01000_110100, .pref 8 9 0x9234),
    (0b000010_10001_10100_01010_11001_111000, .j 0x2345678),
    (0b000011_10001_10100_01010_11001_111000, .jal 0x2345678),
    (0b000000_01000_00000_00000_00000_001000, .jr 8),
    (0b000000_01000_00000_01001_00000_001001, .jalr 8 9),
    (0b000100_01000_01001_10010_01000_110100, .beq 8 9 0x9234),
    (0b000101_01000_01001_10010_01000_110100, .bne 8 9 0x9234),
    (0b010100_01000_01001_10010_01000_110100, .beql 8 9 0x9234),
    (0b010101_01000_01001_10010_01000_110100, .bnel 8 9 0x9234),
    (0b000110_01000_00000_10010_01000_110100, .blez 8 0x9234),
    (0b000111_01000_00000_10010_01000_110100, .bgtz 8 0x9234),
    (0b010110_01000_00000_10010_01000_110100, .blezl 8 0x9234),
    (0b010111_01000_00000_10010_01000_110100, .bgtzl 8 0x9234),
    (0b000001_01000_00000_10010_01000_110100, .bltz 8 0x9234),
    (0b000001_01000_00001_10010_01000_110100, .bgez 8 0x9234),
    (0b000001_01000_00010_10010_01000_110100, .bltzl 8 0x9234),
    (0b000001_01000_00011_10010_01000_110100, .bgezl 8 0x9234),
    (0b000001_01000_10000_10010_01000_110100, .bltzal 8 0x9234),
    (0b000001_01000_10001_10010_01000_110100, .bgezal 8 0x9234),
    (0b000001_01000_10010_10010_01000_110100, .bltzall 8 0x9234)] reads = true := by
  decide

/-- BGEZALL to MUL.S, in the order of the opcode table. -/
theorem test_decode_rows_101_to_120 : List.all (α := Nat × Instr) [
    (0b000001_01000_10011_10010_01000_110100, .bgezall 8 0x9234),
    (0b000000_01000_01001_10101_00101_110000, .tge 8 9 0x2a5),
    (0b000000_01000_01001_10101_00101_110001, .tgeu 8 9 0x2a5),
    (0b000000_01000_01001_10101_00101_110010, .tlt 8 9 0x2a5),
    (0b000000_01000_01001_10101_00101_110011, .tltu 8 9 0x2a5),
    (0b000000_01000_01001_10101_00101_110100, .teq 8 9 0x2a5),
    (0b000000_01000_01001_10101_00101_110110, .tne 8 9 0x2a5),
    (0b000001_01000_01000_10010_01000_110100, .tgei 8 0x9234),
    (0b000001_01000_01001_10010_01000_110100, .tgeiu 8 0x9234),
    (0b000001_01000_01010_10010_01000_110100, .tlti 8 0x9234),
    (0b000001_01000_01011_10010_01000_110100, .tltiu 8 0x9234),
    (0b000001_01000_01100_10010_01000_110100, .teqi 8 0x9234),
    (0b000001_01000_01110_10010_01000_110100, .tnei 8 0x9234),
    (0b000000_10101_01111_00110_11110_001100, .syscall 0xabcde),
    (0b000000_10101_01111_00110_11110_001101, .brk 0xabcde),
    (0b010001_10000_01000_01001_10011_000000, .addS 8 9 19),
    (0b010001_10001_01000_01001_10011_000000, .addD 8 9 19),
    (0b010001_10000_01000_01001_10011_000001, .subS 8 9 19),
    (0b010001_10001_01000_01001_10011_000001, .subD 8 9 19),
    (0b010001_10000_01000_01001_10011_000010, .mulS 8 9 19)] reads = true := by
  decide

/-- MUL.D to FLOOR.L.S, in the order of the opcode table. -/
theorem test_decode_rows_121_to_140 : List.all (α := Nat × Instr) [
    (0b010001_10001_01000_01001_10011_000010, .mulD 8 9 19),
    (0b010001_10000_01000_01001_10011_000011, .divS 8 9 19),
    (0b010001_10001_01000_01001_10011_000011, .divD 8 9 19),
    (0b010001_10000_00000_01000_01001_000100, .sqrtS 8 9),
    (0b010001_10001_00000_01000_01001_000100, .sqrtD 8 9),
    (0b010001_10000_00000_01000_01001_000101, .absS 8 9),
    (0b010001_10001_00000_01000_01001_000101, .absD 8 9),
    (0b010001_10000_00000_01000_01001_000111, .negS 8 9),
    (0b010001_10001_00000_01000_01001_000111, .negD 8 9),
    (0b010001_10000_00000_01000_01001_010101, .recipS 8 9),
    (0b010001_10001_00000_01000_01001_010101, .recipD 8 9),
    (0b010001_10000_00000_01000_01001_010110, .rsqrtS 8 9),
    (0b010001_10001_00000_01000_01001_010110, .rsqrtD 8 9),
    (0b010001_10000_00000_01000_01001_001000, .roundLS 8 9),
    (0b010001_10001_00000_01000_01001_001000, .roundLD 8 9),
    (0b010001_10000_00000_01000_01001_001001, .truncLS 8 9),
    (0b010001_10001_00000_01000_01001_001001, .truncLD 8 9),
    (0b010001_10000_00000_01000_01001_001010, .ceilLS 8 9),
    (0b010001_10001_00000_01000_01001_001010, .ceilLD 8 9),
    (0b010001_10000_00000_01000_01001_001011, .floorLS 8 9)] reads = true := by
  decide

/-- FLOOR.L.D to MADD.S, in the order of the opcode table. -/
theorem test_decode_rows_141_to_160 : List.all (α := Nat × Instr) [
    (0b010001_10001_00000_01000_01001_001011, .floorLD 8 9),
    (0b010001_10000_00000_01000_01001_001100, .roundWS 8 9),
    (0b010001_10001_00000_01000_01001_001100, .roundWD 8 9),
    (0b010001_10000_00000_01000_01001_001101, .truncWS 8 9),
    (0b010001_10001_00000_01000_01001_001101, .truncWD 8 9),
    (0b010001_10000_00000_01000_01001_001110, .ceilWS 8 9),
    (0b010001_10001_00000_01000_01001_001110, .ceilWD 8 9),
    (0b010001_10000_00000_01000_01001_001111, .floorWS 8 9),
    (0b010001_10001_00000_01000_01001_001111, .floorWD 8 9),
    (0b010001_10000_00000_01000_01001_100100, .cvtWS 8 9),
    (0b010001_10001_00000_01000_01001_100100, .cvtWD 8 9),
    (0b010001_10000_00000_01000_01001_100101, .cvtLS 8 9),
    (0b010001_10001_00000_01000_01001_100101, .cvtLD 8 9),
    (0b010001_10001_00000_01000_01001_100000, .cvtSD 8 9),
    (0b010001_10100_00000_01000_01001_100000, .cvtSW 8 9),
    (0b010001_10101_00000_01000_01001_100000, .cvtSL 8 9),
    (0b010001_10000_00000_01000_01001_100001, .cvtDS 8 9),
    (0b010001_10100_00000_01000_01001_100001, .cvtDW 8 9),
    (0b010001_10101_00000_01000_01001_100001, .cvtDL 8 9),
    (0b010011_01000_01001_10011_11110_100000, .maddS 8 9 19 30)] reads = true := by
  decide

/-- MADD.D to C.LT.S, in the order of the opcode table. -/
theorem test_decode_rows_161_to_180 : List.all (α := Nat × Instr) [
    (0b010011_01000_01001_10011_11110_100001, .maddD 8 9 19 30),
    (0b010011_01000_01001_10011_11110_101000, .msubS 8 9 19 30),
    (0b010011_01000_01001_10011_11110_101001, .msubD 8 9 19 30),
    (0b010011_01000_01001_10011_11110_110000, .nmaddS 8 9 19 30),
    (0b010011_01000_01001_10011_11110_110001, .nmaddD 8 9 19 30),
    (0b010011_01000_01001_10011_11110_111000, .nmsubS 8 9 19 30),
    (0b010011_01000_01001_10011_11110_111001, .nmsubD 8 9 19 30),
    (0b010001_10000_01000_01001_10100_110000, .cFS 8 9 5),
    (0b010001_10000_01000_01001_10100_110001, .cUnS 8 9 5),
    (0b010001_10000_01000_01001_10100_110010, .cEqS 8 9 5),
    (0b010001_10000_01000_01001_10100_110011, .cUeqS 8 9 5),
    (0b010001_10000_01000_01001_10100_110100, .cOltS 8 9 5),
    (0b010001_10000_01000_01001_10100_110101, .cUltS 8 9 5),
    (0b010001_10000_01000_01001_10100_110110, .cOleS 8 9 5),
    (0b010001_10000_01000_01001_10100_110111, .cUleS 8 9 5),
    (0b010001_10000_01000_01001_10100_111000, .cSfS 8 9 5),
    (0b010001_10000_01000_01001_10100_111001, .cNgleS 8 9 5),
    (0b010001_10000_01000_01001_10100_111010, .cSeqS 8 9 5),
    (0b010001_10000_01000_01001_10100_111011, .cNglS 8 9 5),
    (0b010001_10000_01000_01001_10100_111100, .cLtS 8 9 5)] reads = true := by
  decide

/-- C.NGE.S to LWC1, in the order of the opcode table. -/
theorem test_decode_rows_181_to_200 : List.all (α := Nat × Instr) [
    (0b010001_10000_01000_01001_10100_111101, .cNgeS 8 9 5),
    (0b010001_10000_01000_01001_10100_111110, .cLeS 8 9 5),
    (0b010001_10000_01000_01001_10100_111111, .cNgtS 8 9 5),
    (0b010001_10001_01000_01001_10100_110000, .cFD 8 9 5),
    (0b010001_10001_01000_01001_10100_110001, .cUnD 8 9 5),
    (0b010001_10001_01000_01001_10100_110010, .cEqD 8 9 5),
    (0b010001_10001_01000_01001_10100_110011, .cUeqD 8 9 5),
    (0b010001_10001_01000_01001_10100_110100, .cOltD 8 9 5),
    (0b010001_10001_01000_01001_10100_110101, .cUltD 8 9 5),
    (0b010001_10001_01000_01001_10100_110110, .cOleD 8 9 5),
    (0b010001_10001_01000_01001_10100_110111, .cUleD 8 9 5),
    (0b010001_10001_01000_01001_10100_111000, .cSfD 8 9 5),
    (0b010001_10001_01000_01001_10100_111001, .cNgleD 8 9 5),
    (0b010001_10001_01000_01001_10100_111010, .cSeqD 8 9 5),
    (0b010001_10001_01000_01001_10100_111011, .cNglD 8 9 5),
    (0b010001_10001_01000_01001_10100_111100, .cLtD 8 9 5),
    (0b010001_10001_01000_01001_10100_111101, .cNgeD 8 9 5),
    (0b010001_10001_01000_01001_10100_111110, .cLeD 8 9 5),
    (0b010001_10001_01000_01001_10100_111111, .cNgtD 8 9 5),
    (0b110001_01000_01001_10010_01000_110100, .lwc1 8 9 0x9234)] reads = true := by
  decide

/-- LDC1 to MOVF.S, in the order of the opcode table. -/
theorem test_decode_rows_201_to_220 : List.all (α := Nat × Instr) [
    (0b110101_01000_01001_10010_01000_110100, .ldc1 8 9 0x9234),
    (0b111001_01000_01001_10010_01000_110100, .swc1 8 9 0x9234),
    (0b111101_01000_01001_10010_01000_110100, .sdc1 8 9 0x9234),
    (0b010011_01000_01001_00000_10011_000000, .lwxc1 8 9 19),
    (0b010011_01000_01001_00000_10011_000001, .ldxc1 8 9 19),
    (0b010011_01000_01001_10011_00000_001000, .swxc1 8 9 19),
    (0b010011_01000_01001_10011_00000_001001, .sdxc1 8 9 19),
    (0b010011_01000_01001_10011_00000_001111, .pfetch 8 9 19),
    (0b010001_00000_01000_01001_00000_000000, .mfc1 8 9),
    (0b010001_00001_01000_01001_00000_000000, .dmfc1 8 9),
    (0b010001_00010_01000_01001_00000_000000, .cfc1 8 9),
    (0b010001_00100_01000_01001_00000_000000, .mtc1 8 9),
    (0b010001_00101_01000_01001_00000_000000, .dmtc1 8 9),
    (0b010001_00110_01000_01001_00000_000000, .ctc1 8 9),
    (0b010001_01000_10100_10010_01000_110100, .bc1f 5 0x9234),
    (0b010001_01000_10101_10010_01000_110100, .bc1t 5 0x9234),
    (0b010001_01000_10110_10010_01000_110100, .bc1fl 5 0x9234),
    (0b010001_01000_10111_10010_01000_110100, .bc1tl 5 0x9234),
    (0b010001_10000_00000_01000_01001_000110, .movS 8 9),
    (0b010001_10000_10100_01001_10011_010001, .movfS 5 9 19)] reads = true := by
  decide

/-- MOVT.S to DCTW, in the order of the opcode table. -/
theorem test_decode_rows_221_to_236 : List.all (α := Nat × Instr) [
    (0b010001_10000_10101_01001_10011_010001, .movtS 5 9 19),
    (0b010001_10000_01000_01001_10011_010010, .movzS 8 9 19),
    (0b010001_10000_01000_01001_10011_010011, .movnS 8 9 19),
    (0b010001_10001_00000_01000_01001_000110, .movD 8 9),
    (0b010001_10001_10100_01001_10011_010001, .movfD 5 9 19),
    (0b010001_10001_10101_01001_10011_010001, .movtD 5 9 19),
    (0b010001_10001_01000_01001_10011_010010, .movzD 8 9 19),
    (0b010001_10001_01000_01001_10011_010011, .movnD 8 9 19),
    (0b010000_00001_01000_01001_00000_000000, .dmfc0 8 9),
    (0b010000_00101_01000_01001_00000_000000, .dmtc0 8 9),
    (0b010000_10000_00000_00000_00000_000001, .tlbr),
    (0b010000_10000_00000_00000_00000_001000, .tlbp),
    (0b010000_10000_00000_00000_00000_011000, .eret),
    (0b010000_10000_00000_00000_00000_000010, .tlbw),
    (0b010000_10000_00000_00000_00000_000100, .dctr),
    (0b010000_10000_00000_00000_00000_000101, .dctw)] reads = true := by
  decide

/-- Words that are no instruction: MFC0 and the COP2 opcode (R186), funct 5, a REGIMM row that is reserved, a field that must be
zero and is not (R172), and too few bytes. -/
theorem test_reserved_words :
    decodeTableWord 32 0x40086000 = none ∧ decodeTableWord 32 0x48000000 = none ∧ decodeTableWord 32 0x00000005 = none ∧
    decodeTableWord 32 0x05040000 = none ∧ decodeTableWord 32 0x01095060 = none ∧ decodeTableWord 32 0x46062098 = none ∧
    decodeBytes [0, 0, 0] = .error .tooShort := by
  refine ⟨?_, ?_, ?_, ?_, ?_, ?_, rfl⟩ <;> decide

/-! ## One step each: the spec's derived vectors (95_test_vectors.md section 2) -/

/-- The address of the instruction in every vector. -/
def at0 : Word := 0xa800000000100100

/-- Kernel mode at `at0`, TrapBase = 0xa800_0000_0002_0000, every general register 0, the half lines of the data cache
that the tests use written by DCTW (R644). -/
def kernel : State :=
  { State.reset with
    pc := at0, npc := at0 + 4, dcacheWritten := [(0, true), (256, true), (261, true), (768, true)]
    cp0 := { State.reset.cp0 with trapBase := TrapBaseReg.ofWord 0xa800000000020000 } }

/-- The state with another Status. -/
def withStatus (s : State) (f : StatusReg → StatusReg) : State := { s with cp0 := { s.cp0 with status := f s.cp0.status } }

/-- User mode with nothing enabled. -/
def user : State := withStatus kernel fun r => { r with ku := true }

/-- User mode with MIPS III, the extensions and both coprocessors enabled, FR = 1. -/
def userAll : State := withStatus user fun r => { r with ux := true, xx := true, cu0 := true, cu1 := true, fr := true }

/-- Kernel mode with coprocessor 1 usable and FR = 1. -/
def floating : State := withStatus kernel fun r => { r with cu1 := true, fr := true }

/-- Kernel mode in little endian. -/
def little : State := { kernel with cp0 := { kernel.cp0 with config := { kernel.cp0.config with be := false } } }

/-- The state with values in general registers. -/
def regs (s : State) (l : List (Reg × Word)) : State := l.foldl (fun s p => s.setReg p.1 p.2) s

/-- The state with values in floating-point registers, as loads leave them. -/
def fprs (s : State) (l : List (Reg × Word)) : State := l.foldl (fun s p => s.moveFpr p.1 p.2) s

/-- The outcome of the instruction that a word decodes to. -/
def outcome (w : IWord) (s : State) : Outcome :=
  match decodeWord w with
  | .ok i => exec i s
  | .error _ => .refused .hazardViolation

/-- What holds of the next state of the instruction that a word decodes to. -/
def next (w : IWord) (s : State) (p : State → Bool) : Bool :=
  match decodeWord w with
  | .ok i =>
    match exec i s with
    | .next t => p t
    | _ => false
  | .error _ => false

/-- An instruction on t1 = r9 and t2 = r10 gives t0 = r8 and goes on. -/
def gives (w : IWord) (a b r : Word) : Bool :=
  next w (regs kernel [(9, a), (10, b)]) fun t => t.reg 8 == r && t.pc == at0 + 4

/-- An instruction takes an exception with a code from a state, with EPC at it and t0 unchanged. -/
def takes (w : IWord) (s : State) (code : BitVec 5) : Bool :=
  next w s fun t => t.cp0.cause.excCode == code && t.cp0.epc == at0 && t.cp0.status.exl && t.reg 8 == s.reg 8 &&
    t.pc == 0xa800000000020c00

/-- An instruction on t1 and t2 overflows. -/
def overflows (w : IWord) (a b : Word) : Bool := takes w (regs kernel [(8, 3), (9, a), (10, b)]) 12

/-- Section 2.1: ADD, ADDU, SUB, SUBU and their doubleword and immediate forms. -/
theorem test_add_and_subtract :
    (overflows 0x012a4020 0x7fffffff 1 && overflows 0x012a4020 0xffffffff80000000 0xffffffffffffffff &&
    gives 0x012a4020 5 0xfffffffffffffff9 0xfffffffffffffffe &&
    gives 0x012a4021 0x7fffffff 1 0xffffffff80000000 && gives 0x012a4021 0xffffffff80000000 0xffffffffffffffff 0x7fffffff &&
    overflows 0x012a4022 0xffffffff80000000 1 && gives 0x012a4022 3 5 0xfffffffffffffffe &&
    gives 0x012a4023 0xffffffff80000000 1 0x7fffffff &&
    overflows 0x012a402c 0x7fffffffffffffff 1 && gives 0x012a402c 0xffffffff 1 0x100000000 &&
    gives 0x012a402d 0x7fffffffffffffff 1 0x8000000000000000 &&
    overflows 0x012a402e 0 0x8000000000000000 && gives 0x012a402f 0 1 0xffffffffffffffff &&
    overflows 0x2128ffff 0xffffffff80000000 0 && gives 0x2528ffff 0xffffffff80000000 0 0x7fffffff &&
    overflows 0x6128ffff 0x8000000000000000 0 && gives 0x65288000 0x8000 0 0) = true := by decide

/-- Section 2.1: logic, LUI and comparisons. -/
theorem test_logic_and_compare :
    (gives 0x012a4024 0xff00ff00ff00ff00 0x0ff00ff00ff00ff0 0x0f000f000f000f00 &&
    gives 0x012a4025 0xff00ff00ff00ff00 0x0ff00ff00ff00ff0 0xfff0fff0fff0fff0 &&
    gives 0x012a4026 0xff00ff00ff00ff00 0x0ff00ff00ff00ff0 0xf0f0f0f0f0f0f0f0 &&
    gives 0x012a4027 0xff00ff00ff00ff00 0x0ff00ff00ff00ff0 0x000f000f000f000f &&
    gives 0x31288000 0xffffffff12345678 0 0 && gives 0x35288000 0xffffffff12345678 0 0xffffffff1234d678 &&
    gives 0x3928ffff 0xffffffff12345678 0 0xffffffff1234a987 &&
    gives 0x3c088000 0 0 0xffffffff80000000 && gives 0x3c087fff 0 0 0x7fff0000 &&
    gives 0x012a402a 0xffffffffffffffff 0 1 && gives 0x012a402a 0x8000000000000000 0x7fffffffffffffff 1 &&
    gives 0x012a402b 0xffffffffffffffff 0 0 && gives 0x2928ffff 0xfffffffffffffffe 0 1 &&
    gives 0x2d28ffff 0xfffffffffffffffe 0 1 && gives 0x2d28ffff 0xffffffffffffffff 0 0) = true := by decide

/-- Section 2.1: shifts. -/
theorem test_shifts :
    (gives 0x00094100 0xffffffff89abcdef 0 0xffffffff9abcdef0 && gives 0x00094000 0x1234567889abcdef 0 0xffffffff89abcdef &&
    gives 0x00094102 0xffffffff89abcdef 0 0x089abcde && gives 0x00094002 0xffffffff89abcdef 0 0xffffffff89abcdef &&
    gives 0x00094103 0xffffffff89abcdef 0 0xfffffffff89abcde &&
    gives 0x01494004 0xffffffff89abcdef 0x24 0xffffffff9abcdef0 && gives 0x01494006 0xffffffff89abcdef 0x24 0x089abcde &&
    gives 0x01494007 0xffffffff89abcdef 0x24 0xfffffffff89abcde &&
    gives 0x00094138 0x8000000000000001 0 0x10 && gives 0x0009413a 0x8000000000000001 0 0x0800000000000000 &&
    gives 0x0009413b 0x8000000000000001 0 0xf800000000000000 && gives 0x0009403c 0x8000000000000001 0 0x100000000 &&
    gives 0x000947fe 0x8000000000000001 0 1 && gives 0x000947ff 0x8000000000000001 0 0xffffffffffffffff &&
    gives 0x01494014 0x8000000000000001 0x44 0x10 && gives 0x01494016 0x8000000000000001 0x44 0x0800000000000000 &&
    gives 0x01494017 0x8000000000000001 0x44 0xf800000000000000) = true := by decide

/-- Kernel mode, coprocessor 1 usable, condition codes given. -/
def codes (fcc : BitVec 8) : State := { floating with fsr := { floating.fsr with fcc := fcc } }

/-- Section 2.1: conditional moves, r0, and the instructions that user mode may not run. -/
theorem test_conditional_moves_and_modes :
    (gives 0x012a400a 7 0 7 && gives 0x012a400a 7 0x100000000 0 && gives 0x012a400b 7 0 0 &&
    next 0x012c4001 (regs (codes 0xf7) [(9, 7)]) (fun t => t.reg 8 == 7) &&
    next 0x012c4001 (regs (codes 0x08) [(9, 7)]) (fun t => t.reg 8 == 0) &&
    next 0x012d4001 (regs (codes 0x08) [(9, 7)]) (fun t => t.reg 8 == 7) &&
    takes 0x012c4001 kernel 11 && next 0x012c4001 kernel (fun t => t.cp0.cause.ce == 1) &&
    next 0x012a0020 (regs kernel [(9, 1), (10, 2)]) (fun t => t.reg 0 == 0) &&
    takes 0x012a402d user 10 && takes 0x012a400a user 10) = true := by decide

/-- An instruction on t1 and t2 gives HI and LO. -/
def product (w : IWord) (a b hi lo : Word) : Bool :=
  next w (regs kernel [(9, a), (10, b)]) fun t => t.hi == hi && t.lo == lo

/-- Section 2.2: multiply and divide. -/
theorem test_multiply_and_divide :
    (product 0x012a0018 0xfffffffffffffffd 7 0xffffffffffffffff 0xffffffffffffffeb &&
    product 0x012a0018 0xffffffff80000000 0xffffffff80000000 0x40000000 0 &&
    product 0x012a0019 0xffffffffffffffff 0xffffffffffffffff 0xfffffffffffffffe 1 &&
    product 0x012a001a 0xfffffffffffffff9 2 0xffffffffffffffff 0xfffffffffffffffd &&
    product 0x012a001a 7 0xfffffffffffffffe 1 0xfffffffffffffffd &&
    product 0x012a001b 0xfffffffffffffff9 2 1 0x7ffffffc &&
    product 0x012a001c 0x8000000000000000 2 0xffffffffffffffff 0 &&
    product 0x012a001d 0xffffffffffffffff 0xffffffffffffffff 0xfffffffffffffffe 1 &&
    product 0x012a001e 0x8000000000000000 3 0xfffffffffffffffe 0xd555555555555556 &&
    product 0x012a001f 0xffffffffffffffff 10 5 0x1999999999999999 &&
    next 0x00004010 { kernel with hi := 6 } (fun t => t.reg 8 == 6) &&
    next 0x00004012 { kernel with lo := 6 } (fun t => t.reg 8 == 6) &&
    next 0x01200011 (regs { kernel with lo := 6 } [(9, 5)]) (fun t => t.hi == 5 && t.lo == 6) &&
    next 0x01200013 (regs { kernel with hi := 6 } [(9, 5)]) (fun t => t.lo == 5 && t.hi == 6)) = true := by decide

/-- Bytes 0x00, 0x11, ..., 0xff at physical 0x1000, reached by a0 = r4 through the uncached kernel-physical window. -/
def memory (s : State) : State :=
  regs { s with mem := Memory.writeList (fun _ => true) s.mem 0x1000 ((List.range 16).map fun i => BitVec.ofNat 8 (17 * i)) }
    [(4, 0x9000000000001000), (8, 0xaaaaaaaabbbbbbbb)]

/-- A load into t0 gives this value in big endian and that one in little endian. -/
def loads (w : IWord) (big small : Word) : Bool :=
  next w (memory kernel) (fun t => t.reg 8 == big) && next w (memory little) (fun t => t.reg 8 == small)

/-- Section 2.3: whole loads, in both byte orders. -/
theorem test_loads :
    (loads 0x80880008 0xffffffffffffff88 0xffffffffffffff88 && loads 0x90880008 0x88 0x88 &&
    loads 0x84880008 0xffffffffffff8899 0xffffffffffff9988 && loads 0x94880008 0x8899 0x9988 &&
    loads 0x8c880008 0xffffffff8899aabb 0xffffffffbbaa9988 && loads 0x9c880008 0x8899aabb 0xbbaa9988 &&
    loads 0xdc880008 0x8899aabbccddeeff 0xffeeddccbbaa9988) = true := by decide

/-- Section 2.3: alignment errors of loads and stores, with VAddr. -/
theorem test_alignment :
    (takes 0x84880001 (memory kernel) 4 && takes 0x8c880002 (memory kernel) 4 && takes 0xdc880004 (memory kernel) 4 &&
    takes 0xa4880003 (memory kernel) 5 && takes 0xac880006 (memory kernel) 5 && takes 0xfc88000c (memory kernel) 5 &&
    next 0xdc880004 (memory kernel) (fun t => t.cp0.vAddr == 0x9000000000001004)) = true := by decide

/-- Section 2.3: LWL and LDL and their right partners alone, in both byte orders. -/
theorem test_partial_loads :
    (loads 0x88880005 0x556677bb 0x5544bbbb &&
    next 0x9888000b (memory kernel) (fun t => t.reg 8 == 0xffffffff8899aabb) &&
    next 0x98880008 (memory little) (fun t => t.reg 8 == 0xffffffffbbaa9988) &&
    loads 0x68880003 0x3344556677bbbbbb 0x33221100bbbbbbbb &&
    loads 0x6c88000a 0xaaaaaaaabb8899aa 0xaaaaffeeddccbbaa) = true := by decide

/-- Section 2.3: LWR with two bytes, whichever upper half it leaves: big endian and little endian. -/
theorem test_partial_lwr :
    (∃ t, exec (.lwr 4 8 5) (memory kernel) = .next t ∧
      t.reg 8 = mergeLwr (Config.freeBool .lwrUpper 0) 2 0x4455 0xaaaaaaaabbbbbbbb) ∧
    (∀ b, lowWord (mergeLwr b 2 0x4455 0xaaaaaaaabbbbbbbb) = 0xbbbb4455) ∧
    (∃ t, exec (.lwr 4 8 5) (memory little) = .next t ∧
      t.reg 8 = mergeLwr (Config.freeBool .lwrUpper 0) 3 0x776655 0xaaaaaaaabbbbbbbb) ∧
    (∀ b, lowWord (mergeLwr b 3 0x776655 0xaaaaaaaabbbbbbbb) = 0xbb776655) :=
  ⟨⟨_, rfl, rfl⟩, by decide, ⟨_, rfl, rfl⟩, by decide⟩

/-- The doubleword at physical 0x1000 after a store of t0 by a0, the bytes around it 0xdd before, in address order. -/
def stores (s : State) (w : IWord) (v : Word) (bs : List Byte) : Bool :=
  next w (regs { s with mem := Memory.writeList (fun _ => true) [] 0x1000 (List.replicate 8 0xdd) } [(4, 0x9000000000001000), (8, v)])
    fun t => t.physBytes 0x1000 8 == bs

/-- Sections 2.3 and P2: whole and partial stores, in both byte orders. -/
theorem test_stores :
    (stores kernel 0xa0880001 0x11223344 [0xdd, 0x44, 0xdd, 0xdd, 0xdd, 0xdd, 0xdd, 0xdd] &&
    stores little 0xa4880002 0x11223344 [0xdd, 0xdd, 0x44, 0x33, 0xdd, 0xdd, 0xdd, 0xdd] &&
    stores kernel 0xac880000 0x11223344 [0x11, 0x22, 0x33, 0x44, 0xdd, 0xdd, 0xdd, 0xdd] &&
    stores little 0xfc880000 0x0102030405060708 [8, 7, 6, 5, 4, 3, 2, 1] &&
    stores kernel 0xa8880001 0x11223344 [0xdd, 0x11, 0x22, 0x33, 0xdd, 0xdd, 0xdd, 0xdd] &&
    stores little 0xa8880001 0x11223344 [0x22, 0x11, 0xdd, 0xdd, 0xdd, 0xdd, 0xdd, 0xdd] &&
    stores kernel 0xb8880001 0x11223344 [0x33, 0x44, 0xdd, 0xdd, 0xdd, 0xdd, 0xdd, 0xdd] &&
    stores little 0xb8880001 0x11223344 [0xdd, 0x44, 0x33, 0x22, 0xdd, 0xdd, 0xdd, 0xdd] &&
    stores kernel 0xb0880003 0x0102030405060708 [0xdd, 0xdd, 0xdd, 1, 2, 3, 4, 5] &&
    stores little 0xb0880003 0x0102030405060708 [4, 3, 2, 1, 0xdd, 0xdd, 0xdd, 0xdd] &&
    stores kernel 0xb4880003 0x0102030405060708 [5, 6, 7, 8, 0xdd, 0xdd, 0xdd, 0xdd] &&
    stores little 0xb4880003 0x0102030405060708 [0xdd, 0xdd, 0xdd, 8, 7, 6, 5, 4]) = true := by decide

/-- `s` with `memory` reached through a cachable attribute. -/
def cachable (s : State) : State := regs (memory s) [(4, 0x9800000000001000)]

/-- `s` after an LL or LLD of n bytes at its a0, an ERET or an invalidation having cleared LLbit since. -/
def unlinked (n : Nat) (s : State) : State := { s with linked := some ⟨0x9800000000001000, 0x1000, 3, n⟩ }

/-- `s` after an LL or LLD of n bytes at its a0, so that LLbit is set. -/
def linked (n : Nat) (s : State) : State := { unlinked n s with llbit := true }

/-- Section 2.3: LL sets LLbit, SC without it stores nothing and gives 0, SYNC and PREF change no register. -/
theorem test_linked_sync_and_prefetch :
    (next 0xc0880000 (cachable kernel) (fun t => t.reg 8 == 0x00112233 && t.llbit) &&
    next 0xd0880000 (cachable kernel) (fun t => t.reg 8 == 0x0011223344556677 && t.llbit) &&
    next 0xe0880000 (unlinked 4 (cachable kernel)) (fun t => t.reg 8 == 0 && t.mem == (memory kernel).mem) &&
    next 0xf0880000 (unlinked 8 (cachable kernel)) (fun t => t.reg 8 == 0 && t.mem == (memory kernel).mem) &&
    next 0x0000000f kernel (fun t => t == kernel.advance) &&
    next 0xcc800000 (memory kernel) (fun t => t == (memory kernel).advance)) = true := by decide

/-- R324: LL of an uncached address, SC with no LL before it, and SC of another size are refused. -/
theorem test_unmatched_conditional_stores :
    outcome 0xc0880000 (memory kernel) = .refused .uncachedLink ∧
    outcome 0xe0880000 (cachable kernel) = .refused .unmatchedConditional ∧
    outcome 0xe0880000 (linked 8 (cachable kernel)) = .refused .unmatchedConditional := ⟨rfl, rfl, rfl⟩

/-- An address that a load by a0 = r4 cannot use, with the VAddr it leaves. -/
def badAddress (s : State) (w : IWord) (base va : Word) : Bool :=
  takes w (regs s [(4, base)]) 4 && next w (regs s [(4, base)]) fun t => t.cp0.vAddr == va

/-- Section 2.3: address formation and the legality of addresses. -/
theorem test_address_formation :
    (badAddress kernel 0x8c887fff 0x3fffffffffffff00 0x4000000000007eff &&
    badAddress kernel 0x8c880000 0x0001000000000000 0x0001000000000000 &&
    badAddress user 0x8c880000 0x4000000000000000 0x4000000000000000 &&
    badAddress kernel 0x8c880000 0x8800000000000000 0x8800000000000000 &&
    badAddress kernel 0x8c880000 0x9000010000000000 0x9000010000000000 &&
    badAddress kernel 0x8c880000 0xc001000000000000 0xc001000000000000 &&
    badAddress user 0x8c08fff8 0 0xfffffffffffffff8 &&
    next 0x8c880000 (regs kernel [(4, 0x900000001fc00000)]) (fun t => t.pc == at0 + 4)) = true := by decide

/-- The two program counters after an instruction, whether its successor is a delay slot, and r31. -/
def goes (w : IWord) (l : List (Reg × Word)) (pc npc : Word) (slot : Bool) (ra : Word) : Bool :=
  next w (regs kernel l) fun t => t.pc == pc && t.npc == npc && t.inSlot == slot && t.reg 31 == ra

/-- Section 2.4: branches and jumps at P = `at0`. -/
theorem test_branches_and_jumps :
    (goes 0x11090003 [] (at0 + 4) (at0 + 16) true 0 && goes 0x11090003 [(8, 1)] (at0 + 4) (at0 + 8) true 0 &&
    goes 0x1500fffd [(8, 1)] (at0 + 4) (at0 - 8) true 0 && goes 0x51090003 [(8, 1)] (at0 + 8) (at0 + 12) false 0 &&
    goes 0x55090003 [(8, 1)] (at0 + 4) (at0 + 16) true 0 &&
    goes 0x19000001 [(8, 0x8000000000000000)] (at0 + 4) (at0 + 8) true 0 && goes 0x1d000002 [] (at0 + 4) (at0 + 8) true 0 &&
    goes 0x59000002 [] (at0 + 4) (at0 + 12) true 0 && goes 0x5d000002 [] (at0 + 8) (at0 + 12) false 0 &&
    goes 0x05000002 [(8, 0x80000000)] (at0 + 4) (at0 + 8) true 0 && goes 0x05010002 [] (at0 + 4) (at0 + 12) true 0 &&
    goes 0x05020002 [] (at0 + 8) (at0 + 12) false 0 && goes 0x05030002 [] (at0 + 4) (at0 + 12) true 0 &&
    goes 0x0510ffff [(8, 0xffffffffffffffff)] (at0 + 4) at0 true (at0 + 8) &&
    goes 0x05110002 [(8, 0xffffffffffffffff)] (at0 + 4) (at0 + 8) true (at0 + 8) &&
    goes 0x05120002 [] (at0 + 8) (at0 + 12) false (at0 + 8) && goes 0x05130002 [] (at0 + 4) (at0 + 12) true (at0 + 8) &&
    goes 0x08100000 [] (at0 + 4) 0xa800000000400000 true 0 && goes 0x0c100000 [] (at0 + 4) 0xa800000000400000 true (at0 + 8) &&
    goes 0x03e00008 [(31, 0xa800000000100203)] (at0 + 4) 0xa800000000100203 true 0xa800000000100203 &&
    goes 0x0320f809 [(25, 0x1230)] (at0 + 4) 0x1230 true (at0 + 8)) = true := by decide

/-- Section 2.4: what R340 and R345 refuse. -/
theorem test_refused_transfers :
    exec (.jalr 25 25) kernel = .refused .linkSourceRegister ∧
    exec (.beq 8 9 3) { kernel with inSlot := true } = .refused .transferInDelaySlot ∧
    exec .eret { kernel with inSlot := true } = .refused .transferInDelaySlot := ⟨rfl, rfl, rfl⟩

/-- A trap on t0 = r8 and t1 = r9 is taken. -/
def traps (w : IWord) (a b : Word) : Bool := takes w (regs kernel [(8, a), (9, b)]) 13

/-- A trap on t0 and t1 is not taken. -/
def passes (w : IWord) (a b : Word) : Bool := next w (regs kernel [(8, a), (9, b)]) fun t => t.pc == at0 + 4

/-- Section 2.5: traps, SYSCALL and BREAK. -/
theorem test_traps :
    (traps 0x01090034 5 5 && passes 0x01090034 0xffffffff 0xffffffffffffffff && passes 0x01090036 5 5 &&
    passes 0x01090030 0xffffffffffffffff 0 && traps 0x01090031 0xffffffffffffffff 0 && traps 0x01090032 0x8000000000000000 0 &&
    passes 0x01090033 0x8000000000000000 0 && traps 0x0508ffff 0xffffffffffffffff 0 && passes 0x0509ffff 0xfffffffffffffffe 0 &&
    traps 0x050a0000 0xffffffffffffffff 0 && passes 0x050b0000 0xffffffffffffffff 0 && traps 0x050c8000 0xffffffffffff8000 0 &&
    passes 0x050e0000 0 0 && takes 0x0000000c kernel 8 && takes 0x0000000d kernel 9) = true := by decide

/-- A floating-point instruction on f4, f6 and f8 gives f2 and the exceptions raised. -/
def computes (w : IWord) (a b c r : Word) (raised : BitVec 5) : Bool :=
  next w (fprs floating [(4, a), (6, b), (8, c)]) fun t =>
    t.fprFile 2 == r && t.fsr.cause == raised && t.fsr.flags == raised && t.pc == at0 + 4

/-- The same where the result is the low half of f2, under a free upper half. -/
def ComputesLow (w : IWord) (a b : Word) (r : BitVec 32) (raised : BitVec 5) : Prop :=
  ∃ (u : BitVec 32) (t : State), outcome w (fprs floating [(4, a), (6, b)]) = .next t ∧ t.fprFile 2 = u ++ r ∧
    t.fsr.cause = raised

/-- Section 2.6: add, subtract, multiply, divide, square root. -/
theorem test_float_arithmetic :
    (computes 0x46262080 0x3fb999999999999a 0x3fc999999999999a 0 0x3fd3333333333334 flagI &&
    computes 0x46262080 0x3ff0000000000000 0x3ca0000000000000 0 0x3ff0000000000000 flagI &&
    computes 0x46262081 0x3ff8000000000000 0x3ff8000000000000 0 0 0 &&
    computes 0x46262082 0x7fe1ccf385ebc8a0 0x4024000000000000 0 0x7ff0000000000000 (flagO ||| flagI) &&
    computes 0x46262083 0x3ff0000000000000 0x4008000000000000 0 0x3fd5555555555555 flagI &&
    computes 0x46262083 0x3ff0000000000000 0 0 0x7ff0000000000000 flagZ &&
    computes 0x46202084 0x4000000000000000 0 0 0x3ff6a09e667f3bcd flagI &&
    computes 0x46202084 0x8000000000000000 0 0 0x8000000000000000 0 &&
    next 0x46262080 (fprs floating [(4, 1), (6, 0x3ff0000000000000)]) (fun t => t.fprFile 2 == 0x3ff0000000000000)) = true := by
  decide

/-- Section 2.6: sign changes, fused multiply-add and the reciprocals of zero. -/
theorem test_float_sign_and_fused :
    (computes 0x46202085 0xc004000000000000 0 0 0x4004000000000000 0 &&
    computes 0x46202087 0xc004000000000000 0 0 0x4004000000000000 0 &&
    computes 0x4d0620a1 0x4000000000000000 0x4008000000000000 0x3ff0000000000000 0x401c000000000000 0 &&
    computes 0x4d0620a9 0x4000000000000000 0x4008000000000000 0x3ff0000000000000 0x4014000000000000 0 &&
    computes 0x4d0620b1 0x4000000000000000 0x4008000000000000 0x3ff0000000000000 0xc01c000000000000 0 &&
    computes 0x4d0620b9 0x4000000000000000 0x4008000000000000 0x3ff0000000000000 0xc014000000000000 0 &&
    computes 0x46202095 0 0 0 0x7ff0000000000000 flagZ && computes 0x46202096 0 0 0 0x7ff0000000000000 flagZ) = true := by
  decide

/-- Section 2.6: conversions. -/
theorem test_conversions :
    (computes 0x46202088 0x400c000000000000 0 0 4 flagI && computes 0x46202089 0x400c000000000000 0 0 3 flagI &&
    computes 0x4620208a 0x400c000000000000 0 0 4 flagI && computes 0x4620208b 0x400c000000000000 0 0 3 flagI &&
    computes 0x468020a1 0xffffffff 0 0 0xbff0000000000000 0 &&
    computes 0x460020a1 0x3fc00000 0 0 0x3ff8000000000000 0 &&
    computes 0x46a020a1 0x7fffffffffffffff 0 0 0x43e0000000000000 flagI) = true := by decide

/-- Section 2.6: results of 32 bits. -/
theorem test_low_results :
    ComputesLow 0x46062080 0x3f800000 0x40000000 0x40400000 0 ∧
    ComputesLow 0x462020a4 0x4004000000000000 0 2 flagI ∧
    ComputesLow 0x4620208d 0xc004000000000000 0 0xfffffffe flagI ∧
    ComputesLow 0x4620208c 0xc004000000000000 0 0xfffffffe flagI ∧
    ComputesLow 0x4620208e 0xc004000000000000 0 0xfffffffe flagI ∧
    ComputesLow 0x4620208f 0xc004000000000000 0 0xfffffffd flagI ∧
    ComputesLow 0x462020a0 0x3fd5555555555555 0 0x3eaaaaab flagI :=
  ⟨⟨_, _, rfl, rfl, rfl⟩, ⟨_, _, rfl, rfl, rfl⟩, ⟨_, _, rfl, rfl, rfl⟩, ⟨_, _, rfl, rfl, rfl⟩,
    ⟨_, _, rfl, rfl, rfl⟩, ⟨_, _, rfl, rfl, rfl⟩, ⟨_, _, rfl, rfl, rfl⟩⟩

/-- A compare of f4 and f6 gives condition codes and the exceptions raised. -/
def compares (w : IWord) (a b : Word) (fcc : BitVec 8) (raised : BitVec 5) : Bool :=
  next w (fprs floating [(4, a), (6, b)]) fun t => t.fsr.fcc == fcc && t.fsr.cause == raised

/-- Section 2.6: compares; 0x7ff0_0000_0000_0001 is a quiet NaN (R419). -/
theorem test_compares :
    (compares 0x46262032 0x3ff0000000000000 0x3ff0000000000000 1 0 &&
    compares 0x4626213c 0x3ff0000000000000 0x7ff0000000000001 0 flagV &&
    compares 0x46262231 0x3ff0000000000000 0x7ff0000000000001 4 0 &&
    compares 0x46262035 0x3ff0000000000000 0x7ff0000000000001 1 0 &&
    compares 0x4606273e 0x80000000 0 0x80 0 && compares 0x4626213c 0x3ff0000000000000 0x4000000000000000 2 0) = true := by
  decide

/-- Section 2.6: Division by Zero enabled, imprecise and precise: the result is written, or the precise interrupt is taken. -/
theorem test_float_traps :
    let s := fprs floating [(4, 0x3ff0000000000000)]
    let s := { s with fsr := { s.fsr with enable := flagZ } }
    (next 0x46262083 s (fun t => t.fprFile 2 == 0x7ff0000000000000 && t.fsr.fpi) &&
    takes 0x46262083 (withStatus s fun r => { r with dm := true }) 0 &&
    next 0x46262083 (withStatus s fun r => { r with dm := true })
      (fun t => t.fprFile 2 == 0 && t.fsr.flags == flagZ)) = true := by decide

/-- An instruction leaves a word in the low half of f2, under a free upper half. -/
def LeavesLow (w : IWord) (s : State) (r : BitVec 32) : Prop :=
  ∃ (u : BitVec 32) (t : State), outcome w s = .next t ∧ t.fprFile 2 = u ++ r ∧ t.pc = at0 + 4

/-- Section 2.7: LWC1, LWXC1 and MTC1. -/
theorem test_float_words :
    LeavesLow 0xc4820008 (memory floating) 0x8899aabb ∧ LeavesLow 0x4c850080 (regs (memory floating) [(5, 8)]) 0x8899aabb ∧
    LeavesLow 0x44881000 (regs floating [(8, 0x123456789abcdef0)]) 0x9abcdef0 :=
  ⟨⟨_, _, rfl, rfl, rfl⟩, ⟨_, _, rfl, rfl, rfl⟩, ⟨_, _, rfl, rfl, rfl⟩⟩

/-- Section 2.7: floating-point loads and stores. -/
theorem test_float_memory :
    (next 0xd4820008 (memory floating) (fun t => t.fprFile 2 == 0x8899aabbccddeeff) &&
    takes 0xd4820004 (memory floating) 4 &&
    next 0x4c850081 (regs (memory floating) [(5, 8)]) (fun t => t.fprFile 2 == 0x8899aabbccddeeff) &&
    next 0xe4820008 (fprs (memory floating) [(2, 0x1122334455667788)])
      (fun t => t.physBytes 0x1008 4 == [0x55, 0x66, 0x77, 0x88]) &&
    next 0xf4820008 (fprs (memory floating) [(2, 0x1122334455667788)])
      (fun t => t.physBytes 0x1008 4 == [0x11, 0x22, 0x33, 0x44]) &&
    next 0x4c851008 (regs (fprs (memory floating) [(2, 0x1122334455667788)]) [(5, 8)])
      (fun t => t.physBytes 0x1008 4 == [0x55, 0x66, 0x77, 0x88]) &&
    next 0x4c851009 (regs (fprs (memory floating) [(2, 0x1122334455667788)]) [(5, 8)])
      (fun t => t.physBytes 0x1008 4 == [0x11, 0x22, 0x33, 0x44]) &&
    next 0x4c85000f (regs (memory floating) [(5, 8)]) (fun t => t == (regs (memory floating) [(5, 8)]).advance)) = true := by
  decide

/-- Section 2.7: moves between register files, and the control registers. -/
theorem test_float_moves :
    (next 0x44082000 (fprs floating [(4, 0x80000000)]) (fun t => t.reg 8 == 0xffffffff80000000) &&
    next 0x44282000 (fprs floating [(4, 0x123456789abcdef0)]) (fun t => t.reg 8 == 0x123456789abcdef0) &&
    next 0x44a82000 (regs floating [(8, 0x123456789abcdef0)]) (fun t => t.fprFile 4 == 0x123456789abcdef0) &&
    next 0x4448f800 (codes 2) (fun t => t.reg 8 == 0x02000000) &&
    next 0x44c8f800 (codes 2) (fun t => t.fsr.fcc == 0) &&
    next 0x44c8f800 (regs floating [(8, 0x8400)])
      (fun t => t.fsr.flags == flagZ && t.fsr.enable == flagZ && t.fsr.cause == flagZ) &&
    next 0x46202086 (fprs floating [(4, 0x7ff8000000000000)]) (fun t => t.fprFile 2 == 0x7ff8000000000000 && t.fsr.flags == 0) &&
    next 0x46242091 (fprs floating [(4, 7)]) (fun t => t.fprFile 2 == 7) &&
    next 0x46252091 (fprs floating [(4, 7)]) (fun t => t.fprFile 2 == 0) &&
    next 0x46282092 (fprs floating [(4, 7)]) (fun t => t.fprFile 2 == 7) &&
    next 0x46282093 (fprs floating [(4, 7)]) (fun t => t.fprFile 2 == 0)) = true := by decide

/-- Section 2.4: branches on a condition code. -/
theorem test_float_branches :
    (next 0x45050004 (codes 2) (fun t => t.pc == at0 + 4 && t.npc == at0 + 20) &&
    next 0x450a0008 (codes 4) (fun t => t.pc == at0 + 8 && !t.inSlot) &&
    next 0x45040004 (codes 2) (fun t => t.npc == at0 + 8 && t.inSlot) &&
    next 0x45070004 (codes 2) (fun t => t.npc == at0 + 20) && takes 0x45050004 kernel 11) = true := by decide

/-- Section 2.8: coprocessor-0 moves and ERET. -/
theorem test_coprocessor0 :
    (next 0x40a89000 (regs kernel [(8, 0x0123456789abcdef)]) (fun t => t.cp0.work0 == 0x0123456789abcdef) &&
    next 0x40299000 { kernel with cp0 := { kernel.cp0 with work0 := 5 } } (fun t => t.reg 9 == 5) &&
    next 0x40a81000 (regs kernel [(8, 0xffffffffffffffff)]) (fun t => t.readCop0 2 == 0xffffffff80) &&
    next 0x40a86800 (regs kernel [(8, 0x300)]) (fun t => t.cp0.cause.ip == 3) &&
    takes 0x40286000 user 11 && next 0x40286000 user (fun t => t.cp0.cause.ce == 0) &&
    next 0x40286000 userAll (fun t => t.reg 8 == userAll.cp0.status.image) &&
    next 0x42000018 { withStatus user (fun r => { r with exl := true }) with
        cp0 := { user.cp0 with epc := 0x400100, status := { user.cp0.status with exl := true } }, llbit := true }
      (fun t => t.pc == 0x400100 && t.npc == 0x400104 && !t.cp0.status.exl && !t.llbit && t.user) &&
    next 0x00000040 kernel (fun t => t == kernel.advance)) = true := by decide

/-- Section 2.9, T1: UPS = 4K, ASID 0x21, one entry in set 1 of class 0x22, in user mode. -/
def mapped (d v : Bool) : State :=
  regs ({ user with
      cp0 := { user.cp0 with entryHi := ⟨0, 0, 0x21⟩ }
      mem := Memory.writeList (fun _ => true) [] 0x12345004 [0x87, 0x65, 0x43, 0x21] }.setTlbEntry 0x22 1 ⟨⟨0, 0x200, 0x21⟩, ⟨0x12345, 3, d, v⟩⟩)
    [(4, 0x10003000)]

/-- Section 2.9, T1 to T4: a hit, Modified, Invalid, Refill. -/
theorem test_translation :
    (next 0x8c880004 (mapped false true) (fun t => t.reg 8 == 0xffffffff87654321) &&
    takes 0xac880004 (mapped false true) 1 && takes 0x8c880004 (mapped true false) 2 &&
    next 0xac880004 (mapped false true) (fun t => t.cp0.vAddr == 0x10003004 && t.cp0.entryHi.vpn == 0x200 &&
      t.cp0.tlbSet.set == 1 && t.cp0.shiftAmt == 12) &&
    next 0x8c880004 { mapped true true with tlb := [] } (fun t => t.cp0.cause.excCode == 2 && t.pc == 0xa800000000020000)) =
      true := by decide

/-- Section 2.9, T7, T8, T10 and T11: KV1 and KV0 misses, TLBP, reserved SET. -/
theorem test_tlb_instructions :
    (next 0x8c880000 (regs kernel [(4, 0xffff000000005000)]) (fun t => t.pc == 0xa800000000020800) &&
    next 0x8c880000 (regs kernel [(4, 0x4000000000005000)]) (fun t => t.pc == 0xa800000000020400) &&
    next 0x42000008 ({ kernel with cp0 := { kernel.cp0 with vAddr := 0x4000000000013000, entryHi := ⟨0, 0, 5⟩ } }.setTlbEntry 0x16 1
      ⟨⟨1, 0, 5⟩, ⟨0, 0, false, false⟩⟩) (fun t => t.cp0.tlbSet == ⟨false, 1⟩) &&
    next 0x42000008 { kernel with cp0 := { kernel.cp0 with vAddr := 0x4000000000013000 } } (fun t => t.cp0.tlbSet.p) &&
    next 0x42000002 { kernel with cp0 := { kernel.cp0 with vAddr := 0x5000, entryLo := ⟨9, 3, true, true⟩ } }
      (fun t => (t.tlbEntry 5 0).lo == ⟨9, 3, true, true⟩) &&
    next 0x42000001 { kernel with cp0 := { kernel.cp0 with vAddr := 0x5000, tlbSet := ⟨false, 2⟩ } }
      (fun t => t.cp0.entryHi.vpn == 2)) = true := by decide

/-- Section 2.9, T11: a reserved SET. -/
theorem test_reserved_tlb_set :
    exec .tlbw { kernel with cp0 := { kernel.cp0 with tlbSet := ⟨false, 3⟩ } } = .refused .reservedTlbSet := rfl

/-- R527, R528: DCTW writes the upper half of the line that VAddr selects, DCTR reads it. -/
theorem test_data_cache_tags :
    let s := { kernel with cp0 := { kernel.cp0 with vAddr := 0x1050, dCache := ⟨false, 0x123, 5, true⟩ } }
    (next 0x42000005 s (fun t => (t.dline 0x82).tag == 0x123 && (t.dline 0x82).valid == 0x50 && (t.dline 0x82).exclusive) &&
    next 0x42000004 (s.setDline 0x82 ⟨0x77, false, 0xa0, Vector.replicate 32 0⟩)
      (fun t => t.cp0.dCache.tag == 0x77 && t.cp0.dCache.v == 0xa && !t.cp0.dCache.e)) = true := by decide

/-- Section 2.10, E2 to E4 and E10: an exception inside a handler, the vector, and usability before alignment. -/
theorem test_exceptions :
    (next 0x8c880002 (regs { withStatus kernel (fun r => { r with exl := true }) with
        cp0 := { kernel.cp0 with epc := 0x77, status := { kernel.cp0.status with exl := true } } } [(4, 0x9000000000001000)])
      (fun t => t.cp0.epc == 0x77 && t.cp0.cause.excCode == 4 && t.pc == 0xa800000000020c00) &&
    next 0x8c880000 (withStatus kernel fun r => { r with exl := true }) (fun t => t.pc == 0xa800000000020c00) &&
    next 0x0000000c { kernel with cp0 := { kernel.cp0 with trapBase := TrapBaseReg.ofWord 0x900000001fc01abc } }
      (fun t => t.pc == 0x900000001fc01c00) &&
    takes 0xc4820000 (regs user [(4, 1)]) 11 &&
    next 0x012a4020 (regs { kernel with inSlot := true } [(9, 0x7fffffff), (10, 1)])
      (fun t => t.cp0.epc == at0 - 4 && t.cp0.cause.bd)) = true := by decide

/-- R690 example 2: an NMI in user code, and one at exception level. -/
theorem test_nmi :
    (takeNmi { user with pc := 0x401000 }).cp0.epc = 0x401000 ∧ (takeNmi user).cp0.cause.nmi = true ∧
    (takeNmi user).cp0.status.exl = true ∧ (takeNmi user).pc = 0x900000001fc00000 ∧
    (takeNmi (withStatus user fun r => { r with exl := true })).cp0.epc = at0 := by decide

/-- R690 example 3: the distances that the hazard table asks for after a write to VAddr and after TLBR. -/
theorem test_hazards :
    HazardEntry.violates .table ⟨.dmtc0 8, 1, 1⟩ .tlbr = true ∧ HazardEntry.violates .table ⟨.dmtc0 8, 2, 2⟩ .tlbr = false ∧
    HazardEntry.violates .table ⟨.tlbr, 3, 3⟩ (.dmfc0 10) = true ∧
    HazardEntry.violates .table ⟨.tlbr, 4, 4⟩ (.dmfc0 10) = false := by decide

/-- R630 example 4: a posted interrupt status sets IP2. -/
theorem test_interrupt_status :
    ((kernel.interruptStatus true false false 1 false false).cp0.cause.ip = 4) ∧
    (kernel.interruptStatus false true true 1 true true).cp0.cause.ip = 0 ∧
    (kernel.interruptStatus false true true 1 true true).cp0.cause.be = true ∧
    (kernel.interruptStatus false true true 1 true true).nmiPending = true := by decide

/-- A whole step from reset: the word that `withFetchWord` stores is fetched and run. -/
theorem test_first_instruction :
    (match step (State.reset.withFetchWord 32 0x34080005) with
    | .next t => t.reg 8 == 5 && t.pc == 0x900000001fc00004
    | _ => false) = true := by decide


/-! ## Witnesses: states and operands that meet the hypotheses of the statements -/

/-- General registers at the boundaries of the number formats: r1 = 2^31 - 1, r2 = 1, r3 = -2^31, r4 = -1, r5 = 2^32 (no
sign-extended word), r6 = 2^63 - 1, r7 = -2^63, r9 = 0. -/
def values : State :=
  regs kernel [(1, 0x7fffffff), (2, 1), (3, 0xffffffff80000000), (4, 0xffffffffffffffff), (5, 0x100000000),
    (6, 0x7fffffffffffffff), (7, 0x8000000000000000)]

/-- A jump or branch at `at0` that is in a delay slot. -/
def slot : State := { values with inSlot := true }

/-- A KV1 page at the top of the address space, which r0 with a negative offset reaches. -/
def high : State := kernel.setTlbEntry 0x7f 0 ⟨⟨3, 0x1fffffff, 0⟩, ⟨0x12345, 3, true, true⟩⟩

/-- Precise mode, with Division by Zero enabled and f4 = 1.0, f6 = 0.0. -/
def precise : State :=
  let s := withStatus (fprs floating [(4, 0x3ff0000000000000)]) fun r => { r with dm := true }
  { s with fsr := { s.fsr with enable := flagZ } }

/-- A data address that can be used. -/
def Usable (s : State) (kind : AccessKind) (n : Nat) (base : Reg) (off : BitVec 16) : Prop :=
  ∃ x, s.dataAddress kind n base (sext16 off) = .ok x

/-- A data address that raises an exception. -/
def Unusable (s : State) (kind : AccessKind) (n : Nat) (base : Reg) (off : BitVec 16) : Prop :=
  ∃ e, s.dataAddress kind n base (sext16 off) = .raise e

theorem witness_DecodeReadsEncode : Instr.wellFormed (.add 1 2 3) = true ∧ Instr.wellFormed (.sll 0 0 2) = true := by
  decide

theorem witness_EncodeReadsDecode : decodeWord 0x01095020 = .ok (.add 8 9 10) ∧ decodeWord 0x42000018 = .ok .eret :=
  ⟨rfl, rfl⟩

theorem witness_UndecodedWordRaises :
    (∃ x, decodeWord 0x40020000 = .error x) ∧ (∃ x, decodeWord 0x46c00000 = .error x) ∧
    (∃ x, decodeWord 0x4c000002 = .error x) ∧ (∃ x, decodeWord 0x01020001 = .error x) ∧
    (∃ x, decodeWord 0x74000000 = .error x) ∧ user.usable0 = false ∧ kernel.usable0 = true ∧ user.usable1 = false ∧
    floating.usable1 = true :=
  ⟨⟨_, rfl⟩, ⟨_, rfl⟩, ⟨_, rfl⟩, ⟨_, rfl⟩, ⟨_, rfl⟩, rfl, rfl, rfl, rfl⟩

theorem witness_StepRunsDecodedInstruction :
    let s := State.reset.withFetchWord 32 0x34080005
    s.boundary.nmiTaken = false ∧ s.boundary.interrupted = false ∧
    ∃ u, s.boundary.fetch = .ok (0x34080005, u) ∧ decodeWord 0x34080005 = .ok (.ori 0 8 5) ∧
      u.draw.hazardViolation (.ori 0 8 5) = false :=
  ⟨rfl, rfl, _, rfl, rfl, rfl⟩

/-- A fetch in user mode at 0x400100, whose I-cache line `held` is valid or not. -/
def fetching (held : Bool) : State :=
  { user with pc := 0x400100 }.setIline (icacheIndex 0x400100)
    ⟨held, icacheTag 0x400100, 0, Vector.ofFn fun i => BitVec.ofNat 32 (0x24080000 + i.val)⟩

theorem witness_InstructionFetch :
    kernel.pc.extractLsb' 0 2 = 0 ∧ legalAddress kernel.pc kernel.user = true ∧ kernel.icacheHit kernel.pc = false ∧
    (∃ t, kernel.translate .fetch kernel.pc false = .ok t ∧ t.c = 5 ∧
      ∀ k, k < 4 → kernel.backedAt (t.pa.toNat + k) = true) ∧
    (let s := { kernel with pc := 0x900000001fc00000 }
     s.icacheHit s.pc = false ∧ ∃ t, s.translate .fetch s.pc false = .ok t ∧ t.c = 2 ∧
      ∀ k, k < 4 → s.backedAt (t.pa.toNat + k) = true) ∧
    (let s := fetching true
     s.pc.extractLsb' 0 2 = 0 ∧ legalAddress s.pc s.user = true ∧ s.pc.extractLsb' 62 2 ≠ 2 ∧ s.pc.extractLsb' 62 2 ≠ 3 ∧
     s.late.iasid = none ∧ s.icacheHit s.pc = true) ∧
    (let s := fetching false
     s.icacheHit s.pc = false ∧ (∃ e, s.translate .fetch s.pc false = .raise e) ∧
     (∃ r, (withStatus s fun r => { r with ups := 7 }).translate .fetch s.pc false = .refuse r) ∧
     ∃ f, ((s.setTlbEntry 0 0 ⟨⟨0, 8, 0⟩, ⟨0, 0, true, true⟩⟩).setTlbEntry 0 1 ⟨⟨0, 8, 0⟩, ⟨0, 0, true, true⟩⟩).translate .fetch
       0x400000 false = .fault f) ∧
    (let s := { kernel with pc := 0xa800000000100102 }
     s.boundary.nmiTaken = false ∧ s.boundary.interrupted = false ∧ s.boundary.pc.extractLsb' 0 2 ≠ 0) ∧
    user.boundary.nmiTaken = false ∧ user.boundary.interrupted = false ∧
    legalAddress user.boundary.pc user.boundary.user = false :=
  ⟨rfl, rfl, rfl, ⟨_, rfl, rfl, by decide⟩, ⟨rfl, _, rfl, rfl, by decide⟩, by decide, ⟨by decide, ⟨_, rfl⟩, ⟨_, rfl⟩, _, rfl⟩,
    ⟨rfl, rfl, by decide⟩, rfl, rfl, rfl⟩

theorem witness_TablesStayCanonical :
    Canonical (mapped true true) ∧ Sequential (mapped true true) ∧ ∃ t, step kernel = .next t :=
  ⟨⟨by decide, by decide, by decide, by decide, by decide, by decide, by decide⟩, fun _ => rfl, _, rfl⟩

theorem witness_ZeroRegister : (3 : Reg) ≠ 0 ∧ (31 : Reg) ≠ 3 := by decide

theorem witness_WordAddSubtract :
    (∀ r ∈ ([0, 1, 2, 3, 4] : List Reg), IsWord (values.reg r)) ∧ ¬IsWord (values.reg 5) ∧
    (values.reg 1).toInt + (values.reg 0).toInt = 2 ^ 31 - 1 ∧ (values.reg 1).toInt + (values.reg 2).toInt = 2 ^ 31 ∧
    (values.reg 3).toInt + (values.reg 0).toInt = -2 ^ 31 ∧ (values.reg 3).toInt + (values.reg 4).toInt = -2 ^ 31 - 1 ∧
    (values.reg 1).toInt + (1 : BitVec 16).toInt = 2 ^ 31 ∧ (values.reg 3).toInt + (0xffff : BitVec 16).toInt = -2 ^ 31 - 1 ∧
    (values.reg 1).toInt - (values.reg 4).toInt = 2 ^ 31 ∧ (values.reg 3).toInt - (values.reg 2).toInt = -2 ^ 31 - 1 ∧
    (values.reg 4).toInt - (values.reg 1).toInt = -2 ^ 31 := by
  unfold IsWord; decide

/-- MIPS III and the extensions are on in kernel mode and off in user mode without UX and XX. -/
theorem enables : (UxOn values ∧ XxOn values ∧ UxOn userAll ∧ XxOn userAll) ∧ ¬UxOn user ∧ ¬XxOn user := by
  unfold UxOn XxOn; decide

theorem witness_DoublewordAddSubtract :
    UxOn values ∧ ¬UxOn user ∧
    (values.reg 6).toInt + (values.reg 0).toInt = 2 ^ 63 - 1 ∧ (values.reg 6).toInt + (values.reg 2).toInt = 2 ^ 63 ∧
    (values.reg 7).toInt + (values.reg 0).toInt = -2 ^ 63 ∧ (values.reg 7).toInt + (values.reg 4).toInt = -2 ^ 63 - 1 ∧
    (values.reg 6).toInt + (1 : BitVec 16).toInt = 2 ^ 63 ∧ (values.reg 7).toInt + (0xffff : BitVec 16).toInt = -2 ^ 63 - 1 ∧
    (values.reg 6).toInt - (values.reg 4).toInt = 2 ^ 63 ∧ (values.reg 7).toInt - (values.reg 2).toInt = -2 ^ 63 - 1 ∧
    (values.reg 4).toInt - (values.reg 6).toInt = -2 ^ 63 := by
  unfold UxOn; decide

theorem witness_WordShifts :
    ¬((0 : Reg) = 0 ∧ (0 : Reg) = 0 ∧ (2 : BitVec 5) = 1) ∧ IsWord (values.reg 3) ∧ ¬IsWord (values.reg 5) := by
  unfold IsWord; decide

theorem witness_DoublewordShifts : UxOn values ∧ UxOn userAll ∧ ¬UxOn user := by unfold UxOn; decide

theorem witness_IntegerConditionalMoves :
    XxOn (codes 0x08) ∧ (codes 0x08).usable1 = true ∧ (codes 0x08).fccBusy.getLsbD 3 = false ∧ (codes 0x08).fsr.cc 3 = true ∧
    (codes 0x08).fsr.cc 2 = false ∧ (codes 0x08).reg 2 = 0 ∧ (memory (codes 0x08)).reg 8 ≠ 0 ∧ ¬XxOn user ∧
    user.usable1 = false ∧ (let s := withStatus user fun r => { r with cu1 := true }; s.usable1 = true ∧ ¬XxOn s) := by
  unfold XxOn; decide

theorem witness_MultiplyDivideHiLo :
    IsWord (values.reg 3) ∧ IsWord (values.reg 2) ∧ values.reg 2 ≠ 0 ∧
    ¬((values.reg 3).toInt = -(2 ^ 31 : Int) ∧ (values.reg 2).toInt = -1) ∧
    ¬((values.reg 1).toInt = -(2 ^ 31 : Int) ∧ (values.reg 4).toInt = -1) ∧
    ¬((values.reg 7).toInt = -(2 ^ 63 : Int) ∧ (values.reg 2).toInt = -1) ∧ values.hiloBusy = false ∧ UxOn values ∧
    ¬UxOn user := by
  unfold IsWord UxOn; decide

/-- `cached`, its memory cachable, its sector held under synonym 5: another one than that of a0, with the same line. -/
def copied : State :=
  { cachable kernel with
    dcache := CMap.set dcacheEmpty [] 0x80 ⟨1, true, 0xff, Vector.ofFn fun i => BitVec.ofNat 8 i.val⟩
    scache := [(32, some 5)] }

/-- The caches before a reference: a hit, a cachable and an uncached miss, a copy under another synonym, half lines not written. -/
theorem caches :
    (copied.dcacheReady 0x980000000000100f = true ∧ (copied.dline 0x80).hit 0x100f 1 = true) ∧
    ((cachable kernel).dcacheReady 0x9800000000001000 = true ∧ ((cachable kernel).dline 0x80).hit 0x1000 8 = false ∧
      (∃ t, (cachable kernel).dataAddress .load 8 4 0 = .ok (0x9800000000001000, t) ∧ t.cachable = true)) ∧
    ((memory kernel).dcacheReady 0x9000000000001000 = true ∧ ((memory kernel).dline 0x80).hit 0x1000 8 = false ∧
      (∃ t, (memory kernel).dataAddress .load 8 4 0 = .ok (0x9000000000001000, t) ∧ t.cachable = false)) ∧
    SynonymCopy copied 0x9800000000001000 ⟨0x1000, 3⟩ 0x80 ∧ ¬SynonymCopy copied 0x9800000000001000 ⟨0x1000, 3⟩ 0x81 ∧
    copied.configView.smm = true ∧ (copied.dline 0x80).tag = (0x1000 : PAddr).extractLsb' 12 28 ∧
    Touches 0x101f 1 7 ∧ ¬Touches 0x101f 1 6 ∧ State.reset.dcacheReady 0 = false := by
  refine ⟨by decide, ⟨by decide, by decide, _, rfl, rfl⟩, ⟨by decide, by decide, _, rfl, rfl⟩,
    ⟨⟨rfl, 5, by decide, by decide, by decide⟩, by decide⟩, fun h => absurd h.2 (by decide), by decide, by decide,
    ⟨0, by decide⟩, ?_, by decide⟩
  rintro ⟨k, hk, h⟩
  obtain rfl : k = 0 := by omega
  exact absurd h (by decide)

theorem witness_AlignedLoads :
    Usable (memory kernel) .load 1 4 15 ∧ Usable (memory kernel) .load 2 4 14 ∧ Usable (memory kernel) .load 4 4 12 ∧
    Usable (memory kernel) .load 8 4 8 ∧ UxOn (memory kernel) ∧ ¬UxOn user :=
  ⟨⟨_, rfl⟩, ⟨_, rfl⟩, ⟨_, rfl⟩, ⟨_, rfl⟩, Or.inl rfl, enables.2.1⟩

/-- The line of 0x1000 holds physical 0x1000 with every word valid. -/
def cached : State :=
  kernel.setDline 0x80 ⟨1, true, 0xff, Vector.ofFn fun i => BitVec.ofNat 8 i.val⟩

theorem witness_LoadedValueIsMemory :
    (let s := memory little
     CMap.get dcacheUnwritten s.dcacheWritten ((0x9000000000001000 : Word).extractLsb' 4 10).toNat = true ∧
     ((0x1000 : PAddr).toNat % 32 + 8 ≤ 32) ∧ (s.dline ((0x9000000000001000 : Word).extractLsb' 5 9).toNat).hit 0x1000 8 = false ∧
     ByteOrder.mixed s.byteOrder s.bigEndian 0x1000 8 = false ∧ ∀ k, k < 8 → s.backedAt (0x1000 + k) = true) ∧
    (let s := memory kernel
     (s.dline ((0x900000000000100f : Word).extractLsb' 5 9).toNat).hit 0x100f 1 = false ∧
     ByteOrder.mixed s.byteOrder s.bigEndian 0x100f 1 = false ∧ ∀ k, k < 1 → s.backedAt (0x100f + k) = true) ∧
    (cached.dline ((0x9000000000001000 : Word).extractLsb' 5 9).toNat).hit 0x1000 8 = true ∧
    (cached.dline ((0x900000000000101f : Word).extractLsb' 5 9).toNat).hit 0x101f 1 = true ∧
    ByteOrder.mixed cached.byteOrder cached.bigEndian 0x1000 8 = false ∧
    ByteOrder.mixed [(0x1000, some false)] kernel.bigEndian 0x1000 2 = true := by
  decide

theorem witness_AlignedStores :
    Usable (memory kernel) .store 1 4 15 ∧ Usable (memory kernel) .store 2 4 14 ∧ Usable (memory kernel) .store 4 4 12 ∧
    Usable (memory kernel) .store 8 4 8 ∧ UxOn (memory kernel) ∧ ¬UxOn user :=
  ⟨⟨_, rfl⟩, ⟨_, rfl⟩, ⟨_, rfl⟩, ⟨_, rfl⟩, Or.inl rfl, enables.2.1⟩

/-- Physical 0x12345000 reached through two pages, 0x10003000 by r4 and 0x10001000 by r5, its sector held under synonym 1. -/
def aliased : State :=
  let s := withStatus ((mapped true true).setTlbEntry 0x20 1 ⟨⟨0, 0x200, 0x21⟩, ⟨0x12345, 3, true, true⟩⟩)
    fun r => { r with ku := false, cu1 := true, fr := true }
  { s.setReg 5 0x10001000 with scache := [(0x12345008 / 128, some 1)] }

/-- A floating-point store changes no data address. -/
theorem aliased_address (va : Word) (t : Translation) (n m : Nat) (v off : Word) :
    (aliased.storeFloat va t n v).advance.dataAddress .load m 5 off = aliased.dataAddress .load m 5 off := by
  obtain ⟨u, w, ⟨d, c, b, rfl, -⟩, e⟩ := aliased.storeFloat_effect va t n v
  rw [e]
  rfl

theorem witness_StoreThenLoadDoubleword :
    UxOn (memory little) ∧ (∃ t, (memory little).dataAddress .store 8 4 (sext16 8) = .ok (0x9000000000001008, t) ∧
      (memory little).dcacheReady 0x9000000000001008 = true ∧ ∀ k, k < 8 → (memory little).ramAt (t.pa.toNat + k) = true) ∧
    UxOn aliased ∧ aliased.usable1 = true ∧ LegalPairs aliased [2] ∧
    (∃ t, aliased.dataAddress .store 8 4 (sext16 8) = .ok (0x10003008, t) ∧ (∀ k, k < 8 → aliased.ramAt (t.pa.toNat + k) = true) ∧
      t.cachable = true ∧ aliased.configView.smm = true ∧ aliased.dcacheReady 0x10003008 = true ∧
      (∃ vs, aliased.synonym t.pa = some vs ∧ vs.extractLsb' 0 2 = (0x10001008 : Word).extractLsb' 12 2) ∧
      ∃ u t', exec (.sdc1 4 2 8) aliased = .next u ∧ u.dataAddress .load 8 5 (sext16 8) = .ok (0x10001008, t') ∧ t'.pa = t.pa) ∧
    aliased.dcacheReady 0x10001008 = true ∧
    (∃ t, aliased.dataAddress .store 4 4 (sext16 12) = .ok (0x1000300c, t) ∧ (∀ k, k < 4 → aliased.ramAt (t.pa.toNat + k) = true) ∧
      t.cachable = true ∧ aliased.dcacheReady 0x1000300c = true ∧
      (∃ vs, aliased.synonym t.pa = some vs ∧ vs.extractLsb' 0 2 = (0x1000100c : Word).extractLsb' 12 2) ∧
      ∃ u t', exec (.swc1 4 2 12) aliased = .next u ∧ u.dataAddress .load 4 5 (sext16 12) = .ok (0x1000100c, t') ∧ t'.pa = t.pa) ∧
    aliased.dcacheReady 0x1000100c = true :=
  ⟨Or.inl rfl, ⟨_, rfl, by decide, by decide⟩, Or.inl rfl, rfl, Or.inl rfl,
    ⟨⟨0x12345008, 3⟩, rfl, by decide, rfl, by decide, by decide, ⟨1, by decide, by decide⟩, _, ⟨0x12345008, 3⟩, rfl, aliased_address _ _ _ _ _ _, rfl⟩, by decide,
    ⟨⟨0x1234500c, 3⟩, rfl, by decide, rfl, by decide, ⟨1, by decide, by decide⟩, _, ⟨0x1234500c, 3⟩, rfl, aliased_address _ _ _ _ _ _, rfl⟩, by decide⟩

theorem witness_PartialLoads :
    Usable (memory kernel) .load 1 4 0 ∧ Usable (memory kernel) .load 1 4 3 ∧ Usable (memory little) .load 1 4 0 ∧
    Usable (memory little) .load 1 4 3 ∧ Usable (memory little) .load 1 4 7 ∧ (memory kernel).bigEndian = true ∧
    (memory little).bigEndian = false ∧ UxOn (memory kernel) ∧ ¬UxOn user ∧
    0x9000000000001003 % 4 + 1 = 4 ∧ 0x9000000000001000 % 4 + 1 ≠ 4 :=
  ⟨⟨_, rfl⟩, ⟨_, rfl⟩, ⟨_, rfl⟩, ⟨_, rfl⟩, ⟨_, rfl⟩, rfl, rfl, Or.inl rfl, enables.2.1, rfl, by decide⟩

theorem witness_PartialStores :
    Usable (memory kernel) .store 1 4 0 ∧ Usable (memory kernel) .store 1 4 7 ∧ Usable (memory little) .store 1 4 0 ∧
    Usable (memory little) .store 1 4 7 ∧ UxOn (memory kernel) ∧ ¬UxOn user :=
  ⟨⟨_, rfl⟩, ⟨_, rfl⟩, ⟨_, rfl⟩, ⟨_, rfl⟩, Or.inl rfl, enables.2.1⟩

/-- A cachable KV1 page, linked through the form of its address that zeros fill; r0 with a negative offset gives the other one. -/
def highLinked : State :=
  { high with llbit := true, linked := some ⟨0xc000fffffffff000, 0x12345000, 3, 4⟩ }

theorem witness_LinkedLoadsAndConditionalStores :
    (∃ x, (cachable kernel).dataAddress .load 4 4 (sext16 0) = .ok x ∧ x.2.c = 3) ∧
    (∃ x, (cachable kernel).dataAddress .load 8 4 (sext16 0) = .ok x ∧ x.2.c = 3) ∧
    (∃ x, (memory kernel).dataAddress .load 4 4 (sext16 0) = .ok x ∧ x.2.c = 2) ∧
    (∃ x, (memory kernel).dataAddress .store 8 4 (sext16 0) = .ok x ∧ x.2.c = 2) ∧
    (∃ x, (cachable kernel).dataAddress .store 4 4 (sext16 0) = .ok x ∧ x.2.c = 3 ∧
      (cachable kernel).linked ≠ some ⟨x.1, x.2.pa, x.2.c, 4⟩ ∧ (linked 4 (cachable kernel)).linked = some ⟨x.1, x.2.pa, x.2.c, 4⟩) ∧
    (∃ x, (cachable kernel).dataAddress .store 8 4 (sext16 0) = .ok x ∧ x.2.c = 3 ∧
      (linked 4 (cachable kernel)).linked ≠ some ⟨x.1, x.2.pa, x.2.c, 8⟩ ∧
      (linked 8 (cachable kernel)).linked = some ⟨x.1, x.2.pa, x.2.c, 8⟩) ∧
    Usable (linked 4 (cachable kernel)) .store 4 4 0 ∧ (linked 4 (cachable kernel)).llbit = true ∧
    Usable (unlinked 4 (cachable kernel)) .store 4 4 0 ∧ (unlinked 4 (cachable kernel)).llbit = false ∧
    Usable (linked 8 (cachable kernel)) .store 8 4 0 ∧ (linked 8 (cachable kernel)).llbit = true ∧
    Usable (unlinked 8 (cachable kernel)) .store 8 4 0 ∧ (unlinked 8 (cachable kernel)).llbit = false ∧
    (∃ x, highLinked.dataAddress .store 4 0 (sext16 0xf000) = .ok x ∧ x.1 = 0xfffffffffffff000 ∧
      highLinked.linked = some ⟨if x.1.extractLsb' 62 2 = 3 then 3#2 ++ 0#14 ++ x.1.extractLsb' 0 48 else x.1, x.2.pa, x.2.c, 4⟩) ∧
    UxOn (cachable kernel) ∧ ¬UxOn user :=
  ⟨⟨_, rfl, rfl⟩, ⟨_, rfl, rfl⟩, ⟨_, rfl, rfl⟩, ⟨_, rfl, rfl⟩, ⟨_, rfl, rfl, by decide, rfl⟩, ⟨_, rfl, rfl, by decide, rfl⟩,
    ⟨_, rfl⟩, rfl, ⟨_, rfl⟩, rfl, ⟨_, rfl⟩, rfl, ⟨_, rfl⟩, rfl,
    ⟨_, rfl, rfl, by decide⟩, Or.inl rfl, enables.2.1⟩

theorem witness_SyncPrefetchAndSsnop :
    XxOn values ∧ ¬XxOn user ∧ floating.usable1 = true ∧ XxOn floating ∧ user.usable1 = false ∧
    (∃ x, values.addrCalc .load 2 (sext16 8) = .ok x ∧ legalAddress x.1 values.user = true) ∧
    (∃ e, (regs kernel [(4, 0x3fffffffffffffff)]).addrCalc .load 4 (sext16 1) = .raise e) ∧
    (∃ x, floating.addrCalc .load 2 (floating.reg 3) = .ok x ∧ legalAddress x.1 floating.user = true) ∧
    (∃ e, (regs floating [(4, 0x3fffffffffffffff), (5, 1)]).addrCalc .load 4
      ((regs floating [(4, 0x3fffffffffffffff), (5, 1)]).reg 5) = .raise e) ∧
    (∃ x, (regs kernel [(4, 0x0000ffffffffffff)]).addrCalc .load 4 (sext16 1) = .ok x ∧ legalAddress x.1 kernel.user = false) ∧
    (∃ x, (regs floating [(4, 0x900000fffffffff8), (5, 8)]).addrCalc .load 4
      ((regs floating [(4, 0x900000fffffffff8), (5, 8)]).reg 5) = .ok x ∧ legalAddress x.1 floating.user = false) :=
  ⟨Or.inl rfl, enables.2.2, rfl, Or.inl rfl, rfl, ⟨_, rfl, rfl⟩, ⟨_, rfl⟩, ⟨_, rfl, rfl⟩, ⟨_, rfl⟩, ⟨_, rfl, by decide⟩,
    ⟨_, rfl, by decide⟩⟩

theorem witness_FailedAccessesRaise :
    Unusable (regs kernel [(4, 0x3fffffffffffffff)]) .load 1 4 1 ∧ Unusable (memory kernel) .load 2 4 1 ∧
    Unusable (memory kernel) .load 4 4 2 ∧ Unusable (memory kernel) .load 8 4 4 ∧ Unusable (mapped true false) .load 4 4 4 ∧
    Unusable (regs kernel [(4, 0x3fffffffffffffff)]) .store 1 4 1 ∧ Unusable (memory kernel) .store 2 4 1 ∧
    Unusable (memory kernel) .store 4 4 2 ∧ Unusable (memory kernel) .store 8 4 4 ∧ Unusable (mapped false true) .store 4 4 4 ∧
    UxOn (memory kernel) :=
  ⟨⟨_, rfl⟩, ⟨_, rfl⟩, ⟨_, rfl⟩, ⟨_, rfl⟩, ⟨_, rfl⟩, ⟨_, rfl⟩, ⟨_, rfl⟩, ⟨_, rfl⟩, ⟨_, rfl⟩, ⟨_, rfl⟩, Or.inl rfl⟩

/-- Two sets of class 0x22 match 0x10003004. -/
def doubled : State := (mapped true true).setTlbEntry 0x22 2 ((mapped true true).tlbEntry 0x22 1)

theorem witness_AddressFormation :
    (let s := regs kernel [(4, 0x3fffffffffffffff), (5, 0x9000000000001000)]
     ¬((4 : Reg) = 0 ∧ (1 : Word).msb = true) ∧ (s.reg 4 + 1).extractLsb' 62 2 ≠ (s.reg 4).extractLsb' 62 2 ∧
     (s.reg 5 + 2).extractLsb' 62 2 = (s.reg 5).extractLsb' 62 2 ∧ (s.reg 5 + 2).toNat % 4 ≠ 0 ∧ (s.reg 5 + 4).toNat % 4 = 0) ∧
    (∃ t, kernel.translate .load 0x9000000000001004 false = .ok t) ∧
    (∃ e, kernel.translate .load 0x5000 false = .raise e) ∧
    (∃ r, (withStatus kernel fun r => { r with ups := 15 }).translate .store 0x5000 false = .refuse r) ∧
    (∃ f, doubled.translate .load 0x10003004 false = .fault f) ∧
    ((0xfffffffffffffff8 : Word).msb = true ∧ user.user = true ∧ high.user = false) ∧
    (3#2 ++ (high.reg 0 + 0xfffffffffffffff8).extractLsb' 0 62).toNat % 8 = 0 ∧
    (3#2 ++ (high.reg 0 + 0xfffffffffffffffc).extractLsb' 0 62).toNat % 8 ≠ 0 ∧
    (∃ t, high.translate .load 0xfffffffffffffff8 true = .ok t) ∧
    (∃ e, kernel.translate .store 0xfffffffffffffff8 true = .raise e) ∧
    (∃ r, (withStatus kernel fun r => { r with kps := 7 }).translate .load 0xfffffffffffffff8 true = .refuse r) ∧
    ∃ f, (high.setTlbEntry 0x7f 1 ((high.tlbEntry 0x7f 0))).translate .load 0xfffffffffffffff8 true = .fault f :=
  ⟨by decide, ⟨_, rfl⟩, ⟨_, rfl⟩, ⟨_, rfl⟩, ⟨_, rfl⟩, by decide, by decide, by decide, ⟨_, rfl⟩, ⟨_, rfl⟩, ⟨_, rfl⟩, _, rfl⟩

theorem witness_LegalAndPhysicalAddresses :
    legalAddress 0x9000000000001000 kernel.user = true ∧ (0x9000000000001000 : Word).extractLsb' 62 2 = 2 ∧
    legalAddress 0x8800000000000000 kernel.user = false ∧ legalAddress 0x9000000000001000 user.user = false ∧
    legalAddress 0x9000010000000000 kernel.user = false ∧ legalAddress 0x9400000000000000 kernel.user = false ∧
    legalAddress 0x900000ffffffffff kernel.user = true ∧ legalAddress 0xc001000000000000 kernel.user = false ∧
    legalAddress 0xfffe000000000000 kernel.user = false ∧ legalAddress 0xffff000000000000 kernel.user = true ∧
    legalAddress 0xc000ffffffffffff kernel.user = true ∧ legalAddress 0x4001000000000000 kernel.user = false := by
  decide

/-- Page sizes of 4K and 16M, an unmapped class, a wired one, several matches, and reserved encodings. -/
theorem witness_MappedTranslation :
    legalAddress 0x10003004 (mapped true true).user = true ∧ (0x10003004 : Word).extractLsb' 62 2 ≠ 2 ∧
    pageBitsOf (pageSizeField (mapped true true).statusView ((0x10003004 : Word).extractLsb' 62 2) false) = some 12 ∧
    (∀ d v, (mapped d v).tlbMatches (tlbIndex (mapped d v).cp0.entryHi.asid 0x10003004 12) 0x10003004 12 = [1]) ∧
    (∀ d v, ((mapped d v).tlbEntry (tlbIndex (mapped d v).cp0.entryHi.asid 0x10003004 12) 1).lo = ⟨0x12345, 3, d, v⟩) ∧
    (0x12345 : BitVec 28).toNat % 2 ^ (12 - 12) = 0 ∧
    (mapped true true).tlbMatches (tlbIndex (mapped true true).cp0.entryHi.asid 0x10103004 12) 0x10103004 12 = [] ∧
    (mapped true true).late.wired = none ∧
    doubled.tlbMatches (tlbIndex doubled.cp0.entryHi.asid 0x10003004 12) 0x10003004 12 = [1, 2] ∧
    (let s := (mapped true true).setTlbEntry 0x22 1 ⟨⟨0, 0x200, 0x21⟩, ⟨0x12345, 6, true, true⟩⟩
     s.tlbMatches 0x22 0x10003004 12 = [1] ∧ (s.tlbEntry 0x22 1).lo.c = 6) ∧
    (let s := { kernel with cp0 := { kernel.cp0 with wired := Vector.replicate 4 ⟨5, true⟩ } }
     (∃ p ∈ s.wiredView.toList, p.v = true ∧ p.index = tlbIndex s.cp0.entryHi.asid 0x10005000 12) ∧
     s.tlbMatches (tlbIndex s.cp0.entryHi.asid 0x10005000 12) 0x10005000 12 = []) ∧
    pageBitsOf (pageSizeField (withStatus kernel fun r => { r with ups := 6 }).statusView 0 false) = some 24 ∧
    legalAddress 0xffff000000000000 kernel.user = true ∧
    pageBitsOf (pageSizeField (withStatus kernel fun r => { r with kps := 7 }).statusView 3 false) = none := by
  decide

theorem witness_JumpsAndLinks :
    values.inSlot = false ∧ (25 : Reg) ≠ 31 ∧ (31 : Reg) = 31 ∧ (25 : Reg) = 25 ∧ (values.reg 3).toInt < 0 ∧
    0 ≤ (values.reg 0).toInt := by
  decide

theorem witness_ConditionalBranches :
    values.inSlot = false ∧ values.reg 0 = values.reg 9 ∧ values.reg 1 ≠ values.reg 2 ∧ (values.reg 3).toInt ≤ 0 ∧
    0 < (values.reg 1).toInt ∧ (values.reg 4).toInt < 0 ∧ 0 ≤ (values.reg 0).toInt := by
  decide

theorem witness_TransferInDelaySlotRefused : slot.inSlot = true ∧ slot.usable0 = true := by decide

theorem witness_Traps :
    (values.reg 3).toInt ≤ (values.reg 3).toInt ∧ ¬((values.reg 1).toInt ≤ (values.reg 3).toInt) ∧
    (values.reg 1).toNat ≤ (values.reg 3).toNat ∧ (values.reg 3).toInt < (values.reg 1).toInt ∧ values.reg 0 = values.reg 9 ∧
    values.reg 1 ≠ values.reg 2 ∧ (0x8000 : BitVec 16).toInt ≤ (values.reg 4).toInt ∧
    ¬(((0x8000 : BitVec 16).signExtend 64).toNat ≤ (values.reg 1).toNat) ∧ values.reg 4 = (0xffff : BitVec 16).signExtend 64 := by
  decide

theorem witness_ExceptionEntry :
    values.late.status = none ∧ values.late.trapBase = none ∧ values.cp0.status.exl = false ∧ slot.late.status = none ∧
    slot.late.trapBase = none ∧ slot.cp0.status.exl = false ∧
    (let s := withStatus values fun r => { r with exl := true }
     s.late.status = none ∧ s.late.trapBase = none ∧ s.cp0.status.exl = true) ∧
    (∀ va, Exc.overflow ≠ .addressErrorLoad va ∧ Exc.overflow ≠ .addressErrorStore va) ∧
    ∀ st va k w, Exc.overflow ≠ .tlbRefill st va k w ∧ Exc.overflow ≠ .tlbInvalid st va k w ∧ Exc.overflow ≠ .tlbModified va k w :=
  ⟨rfl, rfl, rfl, rfl, rfl, rfl, ⟨rfl, rfl, rfl⟩, fun _ => by simp, fun _ _ _ _ => by simp⟩

theorem witness_ExceptionCodesAndOffsets :
    values.late.status = none ∧ values.late.trapBase = none ∧ values.cp0.status.exl = false ∧
    (0x3fffffffffffffff : Word).toNat / 2 ^ 62 = 0 ∧ (0x4000000000000000 : Word).toNat / 2 ^ 62 = 1 ∧
    (0xc000000000000000 : Word).toNat / 2 ^ 62 = 3 ∧ (withStatus values fun r => { r with exl := true }).cp0.status.exl = true ∧
    (withStatus values fun r => { r with exl := true }).late.trapBase = none ∧
    (∀ st va k w, Exc.overflow ≠ .tlbRefill st va k w) :=
  ⟨rfl, rfl, rfl, by decide, by decide, by decide, rfl, rfl, by simp⟩

theorem witness_TlbExceptionRegisters : 12 ≤ 12 ∧ 12 ≤ 24 ∧ 12 ≤ 24 ∧ 24 ≤ 24 := by decide

theorem witness_ExceptionReturn :
    values.usable0 = true ∧ values.inSlot = false ∧ slot.usable0 = true ∧ slot.inSlot = true ∧ user.usable0 = false := by
  decide

theorem witness_ReturnResumesInterruptedInstruction :
    values.late.status = none ∧ values.cp0.status.exl = false ∧ slot.late.status = none ∧ slot.cp0.status.exl = false := by
  decide

/-- An NMI is pending or not; its delivery time is the free choice of log 31, so it is taken where that choice is to take it. -/
theorem witness_NonMaskableInterrupt :
    kernel.boundary.nmiPending = false ∧ { kernel with nmiPending := true }.boundary.nmiPending = true ∧
    (Config.freeBool .nmi 1 = true → { kernel with nmiPending := true }.boundary.nmiTaken = true) :=
  ⟨rfl, rfl, fun h => h⟩

/-- The state with IP2 pending and enabled. -/
def pending : State :=
  { kernel with cp0 := { kernel.cp0 with
      status := { kernel.cp0.status with ie := true, im := 4 }
      cause := { kernel.cp0.cause with ip := 4 } } }

/-- An interrupt is enabled or not; its delivery time is the free choice of log 30. -/
theorem witness_InterruptOnlyWhenEnabled :
    kernel.boundary.late.status = none ∧ kernel.boundary.late.cause = none ∧ kernel.boundary.cp0.status.ie = false ∧
    kernel.boundary.cp0.cause.vci = false ∧ kernel.boundary.cp0.cause.be = false ∧ kernel.boundary.fpiSeen = false ∧
    pending.boundary.late.status = none ∧ pending.boundary.late.cause = none ∧ pending.boundary.cp0.status.exl = false ∧
    pending.boundary.cp0.status.ie = true ∧ pending.boundary.cp0.cause.ip.getLsbD 2 = true ∧
    pending.boundary.cp0.status.im.getLsbD 2 = true ∧ pending.boundary.nmiTaken = false :=
  ⟨rfl, rfl, rfl, rfl, rfl, rfl, rfl, rfl, rfl, rfl, rfl, rfl, rfl⟩

theorem witness_MoveFromCoprocessor0 :
    kernel.usable0 = true ∧ user.usable0 = false ∧ userAll.usable0 = true ∧ (29 : Reg) ≠ 0 ∧
    ({ kernel with cp0 := { kernel.cp0 with iasid := 0xa5 } }.readCop0 29) = 0xa5 := by decide

theorem witness_MoveToCoprocessor0 :
    kernel.usable0 = true ∧ user.usable0 = false ∧ StatusReg.reservedSet (values.reg 4) = true ∧
    StatusReg.reservedSet (values.reg 0) = false ∧
    (3 : Reg) ∉ ([0, 2, 4, 6, 8, 9, 10, 12, 13, 14, 16, 18, 19, 20, 21, 24, 28, 29] : List Reg) := by
  decide

/-- The index and page size of `mapped`'s entry, by VAddr = 0x10003004 and TLBSet.SET = set, in kernel mode. -/
def probing (va : Word) (set : BitVec 2) : State :=
  let s := withStatus (mapped true true) fun r => { r with ku := false }
  { s with cp0 := { s.cp0 with vAddr := va, tlbSet := ⟨false, set⟩ } }

theorem witness_TlbReadWriteProbe :
    (∃ x, (probing 0x10003004 1).vAddrEntry = .ok x) ∧ (∃ x, (probing 0x10003004 3).vAddrEntry = .ok x) ∧ (probing 0x10003004 3).cp0.tlbSet.set = 3 ∧
    (probing 0x10003004 1).cp0.tlbSet.set ≠ 3 ∧ (probing 0x10003004 1).tlbMatches 0x22 0x10003004 12 = [1] ∧
    (probing 0x10103004 1).tlbMatches 0x22 0x10103004 12 = [] ∧ (∃ x, (probing 0x10103004 1).vAddrEntry = .ok x) ∧
    ((probing 0x10003004 1).setTlbEntry 0x22 2 ((probing 0x10003004 1).tlbEntry 0x22 1)).tlbMatches 0x22 0x10003004 12 = [1, 2] ∧
    (probing 0x10003004 1).usable0 = true ∧ user.usable0 = false ∧
    (probing 0x10003004 1).cp0.vAddr.extractLsb' 62 2 ≠ 2 ∧ (probing 0x9000000000001000 1).cp0.vAddr.extractLsb' 62 2 = 2 ∧
    (let s := withStatus (probing 0x10003004 1) fun r => { r with ups := 9 }
     pageBitsOf (pageSizeField s.statusView (s.cp0.vAddr.extractLsb' 62 2) false) = none ∧ s.usable0 = true) :=
  ⟨⟨_, rfl⟩, ⟨_, rfl⟩, rfl, by decide, by decide, by decide, ⟨_, rfl⟩, by decide, rfl, rfl, by decide, by decide, by decide⟩

/-- Half lines that DCTW has and has not written, lower and upper. -/
theorem witness_DataCacheTagReadWrite :
    kernel.usable0 = true ∧ user.usable0 = false ∧ (0x81 : Nat) ≠ 0x82 ∧ 3 < 4 ∧
    (let s := { kernel with cp0 := { kernel.cp0 with vAddr := 0x1050 } }
     CMap.get dcacheUnwritten s.dcacheWritten (s.cp0.vAddr.extractLsb' 4 10).toNat = true ∧ s.cp0.vAddr.getLsbD 4 = true) ∧
    (let s := { kernel with cp0 := { kernel.cp0 with vAddr := 0x1000 } }
     CMap.get dcacheUnwritten s.dcacheWritten (s.cp0.vAddr.extractLsb' 4 10).toNat = true ∧ s.cp0.vAddr.getLsbD 4 = false) ∧
    (let s := { kernel with cp0 := { kernel.cp0 with vAddr := 0x1010 } }
     CMap.get dcacheUnwritten s.dcacheWritten (2 * (s.cp0.vAddr.extractLsb' 5 9).toNat) = true ∧
     CMap.get dcacheUnwritten s.dcacheWritten (s.cp0.vAddr.extractLsb' 4 10).toNat = false) ∧
    CMap.get dcacheUnwritten State.reset.dcacheWritten (State.reset.cp0.vAddr.extractLsb' 4 10).toNat = false := by
  decide

theorem witness_UserModeKeepsSystemState :
    user.user = true ∧ user.usable0 = false ∧ (∃ t, exec (.syscall 0) user = .next t) ∧
    (∃ t, exec (.dmtc0 8 12) user = .next t) ∧ ∃ t, exec (.addu 1 2 3) user = .next t :=
  ⟨rfl, rfl, ⟨_, rfl⟩, ⟨_, rfl⟩, _, rfl⟩

/-- LL sets LLbit, ERET clears it, and so does a load that repairs a virtual synonym. -/
theorem witness_LinkBitSetOnlyByLinkedLoads :
    (∃ t, exec (.ll 4 8 0) (cachable kernel) = .next t ∧ t.llbit = true) ∧
    (∃ t, exec .eret (linked 4 kernel) = .next t ∧ t.llbit = false) ∧
    (let s := (linked 4 (regs kernel [(4, 0x9800000000001000)])).setSynonym 0x1000 5
     s.llbit = true ∧ ∃ t, exec (.lw 4 8 0) s = .next t ∧ t.llbit = false ∧ Resynonymed s t) :=
  ⟨⟨_, rfl, rfl⟩, ⟨_, rfl, rfl⟩, rfl, _, rfl, rfl, 32, 5, 1, by decide, by decide, by decide⟩

/-- A pair of the table, one far enough apart, the exception to the table, and an instruction that is not enabled. -/
theorem witness_HazardPairsRefused :
    decodeWord 0x42000002 = .ok .tlbw ∧
    (let s := { kernel with hazards := [⟨.dmtc0 8, 1, 1⟩] }
     s.barred .tlbw = false ∧ s.hazardViolation .tlbw = true) ∧
    { kernel with hazards := [⟨.dmtc0 8, 2, 2⟩] }.hazardViolation .tlbw = false ∧
    { kernel with hazards := [⟨.dmtc0 2, 0, 0⟩] }.hazardViolation .tlbw = false ∧
    { kernel with hazards := [⟨.dmtc0 2, 0, 1⟩] }.hazardViolation .tlbw = true ∧
    isFloat (.addD 2 4 6) = true ∧ { user with hazards := [⟨.link, 0, 0⟩] }.barred (.dmfc0 8 12) = true ∧
    { user with hazards := [⟨.link, 0, 0⟩] }.hazardViolation (.dmfc0 8 12) = true ∧ ¬((3 : Reg) = 12) ∧
    hazardRole (.jal 5) = .link ∧ hazardRole (.sb 4 8 0) = .memory true ∧
    ssnopsRequired .table .dmfc0 .link ≠ 0 ∧ ssnopsRequired .table .link .link = 0 ∧ ssnopsRequired .table (.dmtc0 12) .tlbr ≠ 0 ∧
    hazardRole (.pref 4 0 8) ≠ .plain ∧ hazardRole .ssnop = .plain ∧ HazardKind.intStore ∈ kernel.hazardKinds (.sb 4 8 0) ∧
    .dmChange ∈ (regs kernel [(8, 0x10000000000)]).hazardKinds (.dmtc0 8 12) ∧ HazardKind.dmChange ∉ kernel.hazardKinds (.dmtc0 8 12) := by
  decide

/-- Registers are legal operands with FR = 1, and an odd one is not with FR = 0. -/
theorem pairs :
    LegalPairs floating [2, 5, 7] ∧ ¬LegalPairs (withStatus floating fun r => { r with fr := false }) [2, 5] ∧
    LegalPairs (withStatus floating fun r => { r with fr := false }) [2, 4] := by
  unfold LegalPairs; decide

/-- A precise trap, and none. -/
theorem traps_precisely : TrapsPrecisely precise flagZ false ∧ ¬TrapsPrecisely precise flagI false ∧
    ¬TrapsPrecisely floating flagZ true ∧ TrapsPrecisely precise 0 true := by
  unfold TrapsPrecisely; decide

/-- A user with coprocessor 1 and neither MIPS III nor the extensions. -/
def userFloat : State := withStatus user fun r => { r with cu1 := true, fr := true }

/-- Coprocessor 1 usable and not, extensions on and off. -/
theorem coprocessor1 : floating.usable1 = true ∧ user.usable1 = false ∧ XxOn floating ∧ UxOn floating ∧
    userFloat.usable1 = true ∧ ¬XxOn userFloat ∧ ¬UxOn userFloat := by
  unfold XxOn UxOn; decide

theorem witness_FloatArithmetic :
    floating.usable1 = true ∧ user.usable1 = false ∧ XxOn floating ∧ (userFloat.usable1 = true ∧ ¬XxOn userFloat) ∧
    LegalPairs floating [2, 5, 7] ∧ ¬LegalPairs (withStatus floating fun r => { r with fr := false }) [2, 5] ∧
    (let r := floatDiv .double precise.floatMode (precise.operandIn 4 .double 0) (precise.operandIn 6 .double 1)
     TrapsPrecisely precise r.raised r.e) ∧
    (let r := floatDiv .double floating.floatMode (floating.operandIn 4 .double 0) (floating.operandIn 6 .double 1)
     ¬TrapsPrecisely floating r.raised r.e) :=
  ⟨rfl, rfl, Or.inl rfl, ⟨rfl, coprocessor1.2.2.2.2.2.1⟩, pairs.1, pairs.2.1, by unfold TrapsPrecisely; decide,
    by unfold TrapsPrecisely; decide⟩

theorem witness_FloatConversions :
    floating.usable1 = true ∧ user.usable1 = false ∧ UxOn floating ∧ (userFloat.usable1 = true ∧ ¬UxOn userFloat) ∧
    LegalPairs floating [2, 5] ∧ ¬LegalPairs (withStatus floating fun r => { r with fr := false }) [2, 5] ∧
    (let s := { precise with fsr := { precise.fsr with enable := flagI } }
     let s := fprs s [(4, 0x3fe0000000000000)]
     let r := floatToInteger .double s.floatMode 0 32 (s.operandIn 4 .double 0)
     TrapsPrecisely s r.raised r.e) ∧
    (let r := floatToInteger .double floating.floatMode 0 32 (floating.operandIn 4 .double 0)
     ¬TrapsPrecisely floating r.raised r.e) ∧
    (FloatFormat.double.operand ⟨0, true, 0⟩ 0x41dfffffffc00000 = .fin false 0x1fffffffc00000 (-22) ∧
      (floatToInteger .double ⟨0, true, 0⟩ 0 32 0x41dfffffffc00000).value = 0x7fffffff) ∧
    ((floatToInteger .double ⟨0, true, 0⟩ 0 32 0x41e0000000000000).raised = flagV ∧
      (floatToInteger .double ⟨0, true, 0⟩ 0 32 0xc1e0000000000000).raised = 0) ∧
    FloatFormat.single.operand ⟨0, true, 0⟩ 0x7f800000 = .inf false ∧ FloatFormat.single.denormal 1 = true :=
  ⟨rfl, rfl, Or.inl rfl, ⟨rfl, coprocessor1.2.2.2.2.2.2⟩, Or.inl rfl, pairs.2.1, by unfold TrapsPrecisely; decide,
    by unfold TrapsPrecisely; decide, by decide, by decide, by decide, by decide⟩

theorem witness_FloatCompares :
    floating.usable1 = true ∧ user.usable1 = false ∧ XxOn floating ∧ (userFloat.usable1 = true ∧ ¬XxOn userFloat) ∧
    LegalPairs floating [5, 7] ∧ ¬LegalPairs (withStatus floating fun r => { r with fr := false }) [2, 5] ∧ (1 : CC) ≠ 0 ∧
    (let s := { precise with fsr := { precise.fsr with enable := flagV } }
     let s := fprs s [(6, 0x7ff8000000000000)]
     let r := floatCompare .double s.floatMode 12 (s.operandIn 4 .double 0) (s.operandIn 6 .double 1)
     TrapsPrecisely s r.raised r.e) ∧
    (let r := floatCompare .double floating.floatMode 12 (floating.operandIn 4 .double 0) (floating.operandIn 6 .double 1)
     ¬TrapsPrecisely floating r.raised r.e) :=
  ⟨rfl, rfl, Or.inl rfl, ⟨rfl, coprocessor1.2.2.2.2.2.1⟩, Or.inl rfl, pairs.2.1, by decide, by unfold TrapsPrecisely; decide,
    by unfold TrapsPrecisely; decide⟩

/-- Operands for each clause: numbers, zeros of both signs, infinities of both signs, a NaN. -/
theorem witness_CompareTruthValue :
    FloatFormat.double.denormal 0x0010000000000000 = false ∧ FloatFormat.double.denormal 0x7ff8000000000000 = false ∧
    FloatFormat.single.denormal 0x80000000 = false ∧ (FloatFormat.double.value 0x7ff8000000000000).isNan = true ∧
    (FloatFormat.double.value 0x0010000000000000).isNan = false ∧ (FloatFormat.single.value 0x80000000).Num true 0 ∧
    (FloatFormat.single.value 0).Num false 0 ∧ (FloatFormat.double.value 0x4000000000000000).Num false 2 ∧
    FloatFormat.double.value 0xfff0000000000000 = .inf true ∧ FloatFormat.double.value 0x7ff0000000000000 = .inf false ∧
    FloatFormat.double.denormal 0xfff0000000000000 = false := by
  refine ⟨by decide, by decide, by decide, by decide, by decide, ⟨0, -149, by decide, by norm_num⟩,
    ⟨0, -149, by decide, by norm_num⟩, ⟨2 ^ 52, -51, by decide, by norm_num⟩, by decide, by decide, by decide⟩

theorem witness_RoundingModes : 0 < 1 ∧ 3 % 2 ^ 1 = 2 ^ (1 - 1) ∧ 0 < 60 ∧ 2 ^ 59 % 2 ^ 60 = 2 ^ (60 - 1) := by decide

theorem witness_ExactResultsAreDelivered :
    0 < 2 ^ 53 - 1 ∧ 2 ^ 53 - 1 < 2 ^ FloatFormat.double.prec ∧ FloatFormat.double.emin ≤ 971 + ((2 ^ 53 - 1 : Nat).log2 : Int) ∧
    971 + ((2 ^ 53 - 1 : Nat).log2 : Int) ≤ FloatFormat.double.emax ∧ 1 < 2 ^ FloatFormat.single.prec ∧
    FloatFormat.single.emin ≤ -126 + ((1 : Nat).log2 : Int) ∧ -126 + ((1 : Nat).log2 : Int) ≤ FloatFormat.single.emax := by
  decide

theorem witness_FloatLoadsAndStores :
    Usable (memory floating) .load 4 4 12 ∧ Usable (memory floating) .load 8 4 8 ∧ Usable (memory floating) .store 4 4 12 ∧
    Usable (memory floating) .store 8 4 8 ∧ (∃ x, (memory floating).dataAddress .load 8 4 ((memory floating).reg 3) = .ok x) ∧
    (∃ x, (memory floating).dataAddress .store 8 4 ((memory floating).reg 3) = .ok x) ∧
    (∃ e, (regs floating [(4, 0x9000000000001000), (5, 2)]).dataAddress .load 8 4
      ((regs floating [(4, 0x9000000000001000), (5, 2)]).reg 5) = .raise e) ∧
    (∃ e, (regs floating [(4, 0x9000000000001000), (5, 2)]).dataAddress .store 4 4
      ((regs floating [(4, 0x9000000000001000), (5, 2)]).reg 5) = .raise e) ∧
    Unusable (memory floating) .load 4 4 2 ∧ Unusable (memory floating) .load 8 4 4 ∧ Unusable (memory floating) .store 4 4 2 ∧
    Unusable (memory floating) .store 8 4 4 ∧ (memory floating).usable1 = true ∧ user.usable1 = false ∧ XxOn (memory floating) ∧
    (userFloat.usable1 = true ∧ ¬XxOn userFloat) ∧ LegalPairs (memory floating) [5] ∧
    ¬LegalPairs (withStatus floating fun r => { r with fr := false }) [5] ∧
    CMap.get dcacheUnwritten (memory floating).dcacheWritten ((0x9000000000001008 : Word).extractLsb' 4 10).toNat = true ∧
    ByteOrder.mixed (memory floating).byteOrder (memory floating).bigEndian 0x1008 8 = false ∧
    ∀ k, k < 8 → (memory floating).backedAt (0x1008 + k) = true :=
  ⟨⟨_, rfl⟩, ⟨_, rfl⟩, ⟨_, rfl⟩, ⟨_, rfl⟩, ⟨_, rfl⟩, ⟨_, rfl⟩, ⟨_, rfl⟩, ⟨_, rfl⟩, ⟨_, rfl⟩, ⟨_, rfl⟩, ⟨_, rfl⟩, ⟨_, rfl⟩, rfl, rfl,
    Or.inl rfl, ⟨rfl, coprocessor1.2.2.2.2.2.1⟩, Or.inl rfl, by unfold LegalPairs; decide, by decide, by decide, by decide⟩

theorem witness_FloatControlAndRegisterMoves :
    floating.usable1 = true ∧ user.usable1 = false ∧ UxOn floating ∧ (userFloat.usable1 = true ∧ ¬UxOn userFloat) ∧
    LegalPairs floating [5] ∧ ¬LegalPairs (withStatus floating fun r => { r with fr := false }) [5] ∧ (0 : Reg) ≠ 31 ∧
    (let f := Fsr.ofWord 0x8400
     precise.statusView.dm = true ∧ (f.cause &&& f.enable ≠ 0 ∨ f.e = true)) ∧
    (let f := Fsr.ofWord 0x8000
     ¬(precise.statusView.dm = true ∧ (f.cause &&& f.enable ≠ 0 ∨ f.e = true))) :=
  ⟨rfl, rfl, Or.inl rfl, ⟨rfl, coprocessor1.2.2.2.2.2.2⟩, Or.inl rfl, by unfold LegalPairs; decide, by decide, by decide,
    by decide⟩

theorem witness_FloatBranchesAndMoves :
    (codes 2).usable1 = true ∧ user.usable1 = false ∧ XxOn (codes 2) ∧ (userFloat.usable1 = true ∧ ¬XxOn userFloat) ∧
    (1 : CC) ≠ 0 ∧ (codes 2).inSlot = false ∧ { codes 2 with inSlot := true }.inSlot = true ∧
    (codes 2).fccBusy.getLsbD 1 = false ∧ { codes 2 with fccBusy := 2 }.fccBusy.getLsbD 1 = true ∧ (codes 2).fsr.cc 1 = true ∧
    (codes 2).fsr.cc 0 = false ∧ LegalPairs (codes 2) [2, 5] ∧
    ¬LegalPairs (withStatus floating fun r => { r with fr := false }) [2, 5] ∧ (codes 2).reg 3 = 0 ∧
    (memory (codes 2)).reg 8 ≠ 0 :=
  ⟨rfl, rfl, Or.inl rfl, ⟨rfl, coprocessor1.2.2.2.2.2.1⟩, by decide, rfl, rfl, rfl, rfl, rfl, rfl, Or.inl rfl, pairs.2.1, rfl,
    by decide⟩

/-- Operands for each kind of result: denormalized ones, signaling and quiet NaNs, infinities, zeros, numbers whose results are
exact, inexact, tiny, and too large. -/
theorem witness_FloatValues :
    (FloatFormat.single = .single ∨ FloatFormat.single = .double) ∧ FloatFormat.single.denormal 0x807fffff = true ∧
    FloatFormat.double.denormal 0x0010000000000000 = false ∧ FloatFormat.single.value 0x7fc00000 = .nan true ∧
    FloatFormat.single.value 0x7f800001 = .nan false ∧ FloatFormat.double.value 0x7ff0000000000001 = .nan false ∧
    FloatFormat.double.value 0xfff0000000000000 = .inf true ∧ FloatFormat.double.value 0 = .fin false 0 (-1074) ∧
    (FloatFormat.double.value 0x3ff0000000000000).Num false 1 ∧ (FloatFormat.double.value 0x8000000000000000).Num true 0 ∧
    (floatAdd .double ⟨0, false, 0⟩ 0x7fefffffffffffff 0x7fefffffffffffff).raised = flagO ||| flagI ∧
    (floatAdd .double ⟨1, false, 0⟩ 0x7fefffffffffffff 0x7fefffffffffffff).value = 0x7fefffffffffffff ∧
    (floatMul .single ⟨0, false, 0⟩ 0x00800000 0x3f000000).e = true ∧
    (floatDiv .double ⟨0, true, 0⟩ 0 0).raised = flagV ∧ (floatSqrt .double ⟨0, true, 0⟩ 0xbff0000000000000).raised = flagV := by
  refine ⟨.inl rfl, by decide, by decide, by decide, by decide, by decide, by decide, by decide, ⟨2 ^ 52, -52, by decide, by norm_num⟩,
    ⟨0, -1074, by decide, by norm_num⟩, by decide, by decide, by decide, by decide, by decide⟩

/-- States for each clause: an event and none, the counter stopped and running, FPI to be seen, sectors held under the same
synonym, another and none, violations with and without an address, a window open and none. -/
theorem witness_EventsAndLateWrites :
    kernel.inputs = [] ∧ { kernel with inputs := [.parityError true, .idle] }.inputs = [.parityError true, .idle] ∧
    (let s := withStatus kernel fun r => { r with exl := true }
     s.configView.ice = true ∧ s.statusView.exl = true) ∧
    ¬(kernel.configView.ice = true ∧ kernel.statusView.exl = true) ∧ kernel.late.counts = none ∧
    precise.fsr.fpi = precise.fpiSeen ∧ { precise with fsr := { precise.fsr with flags := flagZ } }.fsr.fpi = true ∧
    (Translation.mk 0x1000 5).cachable = true ∧ (Translation.mk 0x1000 2).cachable = false ∧ kernel.synonym 0x1000 = none ∧
    (kernel.setSynonym 0x1000 1).synonym 0x1000 = some ((0x1000 : Word).extractLsb' 12 4) ∧
    ((kernel.setSynonym 0x1000 5).synonym 0x1000 = some 5 ∧ (5 : BitVec 4) ≠ (0x1000 : Word).extractLsb' 12 4) ∧
    (kernel.configView.smm = true ∧
      { kernel with cp0 := { kernel.cp0 with config := { kernel.cp0.config with smm := false } } }.configView.smm = false) ∧
    kernel.vciPending = [] ∧
    (let s := { kernel with vciPending := [none, some ⟨0x1000, 1⟩, none] }
     0 < 2 ∧ 2 ≤ s.vciPending.length ∧ (∀ v ∈ s.vciPending.take 1, v = none) ∧
     s.vciPending.take 2 = [none] ++ some ⟨0x1000, 1⟩ :: []) ∧
    (5 : Reg) ∉ ([6, 9, 12, 13, 16, 24, 29] : List Reg) ∧
    (kernel.writeCop0 12 0).late.status = some ⟨kernel.cp0.status, 4⟩ ∧ kernel.late.status = none ∧
    (kernel.writeCop0 6 0).late.trapBase = some ⟨kernel.cp0.trapBase, 2⟩ ∧
    (kernel.writeCop0 9 0).late.counts = some ⟨false, 2⟩ ∧
    (kernel.writeCop0 24 0).late.wired = some ⟨kernel.cp0.wired, 2⟩ ∧ kernel.late.wired = none ∧
    (kernel.writeCop0 13 0).late.cause = some ⟨kernel.cp0.cause, 2⟩ ∧ kernel.late.cause = none := by
  decide

end Sys2Proof.Tests
end

/-! PROOFS. A register image as fields laid out in a word: when no two fields share a bit, the word is the sum of the
fields at their positions, and each field is read back at its own (R28 to R54). -/

namespace Sys2Proof.Machine

/-! ## Fields laid out in a word -/

/-- A field of a register: its lowest bit and its value. -/
structure BitField where
  width : Nat
  pos : Nat
  val : BitVec width

namespace BitField

/-- A field of several bits. -/
def of {n : Nat} (v : BitVec n) (pos : Nat) : BitField := ⟨n, pos, v⟩

/-- A field of one bit. -/
def bit (b : Bool) (pos : Nat) : BitField := ⟨1, pos, .ofBool b⟩

/-- The field in its place, as the model puts it there. -/
def place (f : BitField) : Word := placeField f.val f.pos

/-- What the field adds to the value of a word. -/
def weight (f : BitField) : Nat := f.val.toNat * 2 ^ f.pos

/-- The bits of a word at the position of the field are its value. -/
def ReadFrom {n : Nat} (w : BitVec n) (f : BitField) : Prop := w.extractLsb' f.pos f.width = f.val

/-- Two fields share no bit. -/
def Apart (f g : BitField) : Prop := f.pos + f.width ≤ g.pos ∨ g.pos + g.width ≤ f.pos

/-- The fields share no bit and stand in the low n bits. -/
def Laid (n : Nat) : List BitField → Prop
  | [] => True
  | f :: fs => f.pos + f.width ≤ n ∧ (∀ g ∈ fs, f.Apart g) ∧ Laid n fs

/-- The sum of the fields at their positions. -/
def total : List BitField → Nat
  | [] => 0
  | f :: fs => f.weight + total fs

/-- The word in which the fields stand. -/
def word : List BitField → Word
  | [] => 0
  | f :: fs => f.place ||| word fs

section Simp
variable {n : Nat} (v : BitVec n) (b : Bool) (p : Nat)

@[simp] theorem width_of : (of v p).width = n := rfl
@[simp] theorem width_bit : (bit b p).width = 1 := rfl
@[simp] theorem pos_of : (of v p).pos = p := rfl
@[simp] theorem pos_bit : (bit b p).pos = p := rfl
@[simp] theorem place_of : (of v p).place = placeField v p := rfl
@[simp] theorem place_bit : (bit b p).place = placeBit b p := rfl

@[simp] theorem readFrom_of {m : Nat} (w : BitVec m) : (of v p).ReadFrom w ↔ w.extractLsb' p n = v := Iff.rfl

@[simp] theorem readFrom_bit {m : Nat} (w : BitVec m) : (bit b p).ReadFrom w ↔ w.getLsbD p = b := by
  have bit_iff : (bit b p).ReadFrom w ↔ w.extractLsb' p 1 = .ofBool b := Iff.rfl
  rw [bit_iff]
  constructor
  · intro h
    simpa using congrArg (·.getLsbD 0) h
  · rintro rfl
    exact BitVec.eq_of_getLsbD_eq fun i hi => by
      obtain rfl : i = 0 := by omega
      simp

@[simp] theorem total_nil : total [] = 0 := rfl

-- By rw and not by rfl: a rfl lemma would leave it to the kernel to compare products with powers of 2 by evaluation.
@[simp] theorem total_of (fs : List BitField) : total (of v p :: fs) = v.toNat * 2 ^ p + total fs := by
  rw [total, weight, of]

@[simp] theorem total_bit (fs : List BitField) : total (bit b p :: fs) = b.toNat * 2 ^ p + total fs := by
  rw [total, weight, bit, BitVec.toNat_ofBool]

end Simp

theorem getLsbD_place (f : BitField) (i : Nat) :
    f.place.getLsbD i = (decide (i < 64) && (decide (f.pos ≤ i) && f.val.getLsbD (i - f.pos))) := by
  by_cases hi : i < 64 <;> by_cases hp : f.pos ≤ i <;> simp [place, placeField, hi, hp]

/-- A field in its place has no bit in the position of another one. -/
theorem Apart.getLsbD_place {f g : BitField} (h : f.Apart g) {i : Nat} (hi : i < f.width) :
    g.place.getLsbD (f.pos + i) = false := by
  rw [BitField.getLsbD_place]
  rcases h with h | h
  · simp [show ¬g.pos ≤ f.pos + i by omega]
  · simp [BitVec.getLsbD_of_ge g.val (f.pos + i - g.pos) (by omega)]

theorem getLsbD_word_of_apart {f : BitField} {fs : List BitField} (h : ∀ g ∈ fs, f.Apart g) {i : Nat}
    (hi : i < f.width) : (word fs).getLsbD (f.pos + i) = false := by
  induction fs with
  | nil => simp [word]
  | cons g fs ih =>
    have hg := (h g (by simp)).getLsbD_place hi
    have hfs := ih fun k hk => h k (by simp [hk])
    simp [word, hg, hfs]

theorem Apart.symm {f g : BitField} (h : f.Apart g) : g.Apart f := Or.symm h

theorem Laid.fits {n : Nat} {fs : List BitField} (h : Laid n fs) {f : BitField} (hf : f ∈ fs) : f.pos + f.width ≤ n := by
  induction fs with
  | nil => cases hf
  | cons g fs ih =>
    obtain ⟨hg, -, hfs⟩ := h
    rcases List.mem_cons.mp hf with rfl | hf
    · exact hg
    · exact ih hfs hf

/-- Each field is read back from the word at its own position. -/
theorem Laid.readFrom_word {n : Nat} {fs : List BitField} (h : Laid n fs) (hn : n ≤ 64) {f : BitField} (hf : f ∈ fs) :
    f.ReadFrom (word fs) := by
  refine BitVec.eq_of_getLsbD_eq fun i hi => ?_
  rw [BitVec.getLsbD_extractLsb', decide_eq_true hi, Bool.true_and]
  induction fs with
  | nil => cases hf
  | cons g fs ih =>
    have hfit := h.fits hf
    obtain ⟨-, hapart, hfs⟩ := h
    rw [word, BitVec.getLsbD_or]
    rcases List.mem_cons.mp hf with rfl | hf
    · rw [getLsbD_word_of_apart hapart hi, getLsbD_place]
      simp [show f.pos + i < 64 by omega]
    · rw [(hapart f hf).symm.getLsbD_place hi, ih hfs hf, Bool.false_or]

theorem weight_lt (f : BitField) : f.weight < 2 ^ (f.pos + f.width) := by
  rw [weight, Nat.pow_add, Nat.mul_comm]
  exact Nat.mul_lt_mul_of_pos_left f.val.isLt (Nat.two_pow_pos _)

theorem toNat_place {f : BitField} (h : f.pos + f.width ≤ 64) : f.place.toNat = f.weight := by
  have hw : f.weight < 2 ^ 64 := f.weight_lt.trans_le (Nat.pow_le_pow_right (by omega) h)
  have hv : f.val.toNat < 2 ^ 64 := f.val.isLt.trans_le (Nat.pow_le_pow_right (by omega) (by omega))
  rw [place, placeField, BitVec.toNat_shiftLeft, BitVec.toNat_setWidth, Nat.mod_eq_of_lt hv, Nat.shiftLeft_eq]
  exact Nat.mod_eq_of_lt hw

/-- A field in its place meets none of the fields it is apart from. -/
theorem place_and_word {f : BitField} {fs : List BitField} (h : ∀ g ∈ fs, f.Apart g) : f.place &&& word fs = 0 := by
  refine BitVec.eq_of_getLsbD_eq fun i hi => ?_
  rw [BitVec.getLsbD_and, getLsbD_place]
  by_cases hp : f.pos ≤ i ∧ i - f.pos < f.width
  · have hw := getLsbD_word_of_apart h hp.2
    rw [Nat.add_sub_cancel' hp.1] at hw
    simp [hw]
  · rcases not_and_or.mp hp with hp | hp
    · simp [hp]
    · simp [BitVec.getLsbD_of_ge f.val (i - f.pos) (by omega)]

/-- The word is the sum of its fields at their positions. -/
theorem Laid.toNat_word {n : Nat} {fs : List BitField} (h : Laid n fs) (hn : n ≤ 64) :
    (word fs).toNat = total fs := by
  induction fs with
  | nil => rfl
  | cons f fs ih =>
    obtain ⟨hfit, hapart, hfs⟩ := h
    rw [word, ← BitVec.add_eq_or_of_and_eq_zero _ _ (place_and_word hapart),
      BitVec.toNat_add_of_and_eq_zero (place_and_word hapart), toNat_place (hfit.trans hn), ih hfs, total]

/-- The word has no bit above those in which the fields stand. -/
theorem Laid.toNat_word_lt {n : Nat} {fs : List BitField} (h : Laid n fs) (hn : n ≤ 64) : (word fs).toNat < 2 ^ n := by
  induction fs with
  | nil => exact Nat.two_pow_pos n
  | cons f fs ih =>
    obtain ⟨hfit, -, hfs⟩ := h
    rw [word, BitVec.toNat_or, toNat_place (hfit.trans hn)]
    exact Nat.or_lt_two_pow (f.weight_lt.trans_le (Nat.pow_le_pow_right (by omega) hfit)) (ih hfs)

/-- A register of n bits holds the fields and nothing else. -/
structure Holds {n : Nat} (w : BitVec n) (fs : List BitField) : Prop where
  le : n ≤ 64
  laid : Laid n fs
  eq_word : w = (word fs).setWidth n

theorem Holds.readFrom {n : Nat} {w : BitVec n} {fs : List BitField} (h : Holds w fs) : ∀ f ∈ fs, f.ReadFrom w := by
  intro f hf
  rw [ReadFrom, h.eq_word, BitVec.extractLsb'_setWidth_of_le (h.laid.fits hf)]
  exact h.laid.readFrom_word h.le hf

theorem Holds.toNat {n : Nat} {w : BitVec n} {fs : List BitField} (h : Holds w fs) : w.toNat = total fs := by
  rw [h.eq_word, BitVec.toNat_setWidth, Nat.mod_eq_of_lt (h.laid.toNat_word_lt h.le)]
  exact h.laid.toNat_word h.le

end BitField

/-! ## The registers

The fields of each register at the spec's positions, or at those that NOTES.md logs for it. -/

/-- EntryLo (R32). -/
def TlbLo.fields (r : TlbLo) : List BitField := [.of r.pfn 12, .of r.c 9, .bit r.d 8, .bit r.v 7]

theorem TlbLo.image_holds (r : TlbLo) : BitField.Holds r.image r.fields where
  le := by decide
  laid := by simp [fields, BitField.Laid, BitField.Apart]
  eq_word := by
    simp [fields, BitField.word, image, BitVec.or_assoc, Layout.entryLoPfn, Layout.entryLoC,
      Layout.entryLoD, Layout.entryLoV]

theorem TlbLo.toNat_image (r : TlbLo) : r.image.toNat =
    r.v.toNat * 2 ^ 7 + r.d.toNat * 2 ^ 8 + r.c.toNat * 2 ^ 9 + r.pfn.toNat * 2 ^ 12 := by
  rw [r.image_holds.toNat]
  simp only [fields, BitField.total_bit, BitField.total_of, BitField.total_nil]
  omega

theorem TlbLo.ofWord_eq (w : Word) : TlbLo.ofWord w =
    ⟨w.extractLsb' 12 28, w.extractLsb' 9 3, w.getLsbD 8, w.getLsbD 7⟩ := rfl

theorem TlbLo.ofWord_image (r : TlbLo) : TlbLo.ofWord r.image = r := by
  have h := r.image_holds.readFrom
  simp only [fields, List.forall_mem_cons, BitField.readFrom_bit, BitField.readFrom_of] at h
  simp only [ofWord_eq, h]

/-- EntryHi (R39). -/
def TlbHi.fields (r : TlbHi) : List BitField := [.of r.r 62, .of r.vpn 19, .of r.asid 4]

theorem TlbHi.image_holds (r : TlbHi) : BitField.Holds r.image r.fields where
  le := by decide
  laid := by simp [fields, BitField.Laid, BitField.Apart]
  eq_word := by simp [fields, BitField.word, image, BitVec.or_assoc, Layout.entryHiAsid]

theorem TlbHi.toNat_image (r : TlbHi) : r.image.toNat =
    r.asid.toNat * 2 ^ 4 + r.vpn.toNat * 2 ^ 19 + r.r.toNat * 2 ^ 62 := by
  rw [r.image_holds.toNat]
  simp only [fields, BitField.total_of, BitField.total_nil]
  omega

theorem TlbHi.ofWord_eq (w : Word) : TlbHi.ofWord w =
    ⟨w.extractLsb' 62 2, w.extractLsb' 19 29, w.extractLsb' 4 8⟩ := rfl

theorem TlbHi.ofWord_image (r : TlbHi) : TlbHi.ofWord r.image = r := by
  have h := r.image_holds.readFrom
  simp only [fields, List.forall_mem_cons, BitField.readFrom_of] at h
  simp only [ofWord_eq, h]

/-- TrapBase (R35). -/
def TrapBaseReg.fields (r : TrapBaseReg) : List BitField := [.of r.r 62, .of r.c 59, .of r.base 12]

theorem TrapBaseReg.image_holds (r : TrapBaseReg) : BitField.Holds r.image r.fields where
  le := by decide
  laid := by simp [fields, BitField.Laid, BitField.Apart]
  eq_word := by simp [fields, BitField.word, image, BitVec.or_assoc]

theorem TrapBaseReg.toNat_image (r : TrapBaseReg) : r.image.toNat =
    r.base.toNat * 2 ^ 12 + r.c.toNat * 2 ^ 59 + r.r.toNat * 2 ^ 62 := by
  rw [r.image_holds.toNat]
  simp only [fields, BitField.total_of, BitField.total_nil]
  omega

theorem TrapBaseReg.ofWord_eq (w : Word) : TrapBaseReg.ofWord w =
    ⟨w.extractLsb' 62 2, w.extractLsb' 59 3, w.extractLsb' 12 36⟩ := rfl

theorem TrapBaseReg.ofWord_image (r : TrapBaseReg) : TrapBaseReg.ofWord r.image = r := by
  have h := r.image_holds.readFrom
  simp only [fields, List.forall_mem_cons, BitField.readFrom_of] at h
  simp only [ofWord_eq, h]

/-- Status (R40). -/
def StatusReg.fields (r : StatusReg) : List BitField :=
  [.bit r.ie 0, .bit r.exl 1, .bit r.ku 4, .bit r.ux 5, .bit r.xx 6, .of r.im 8, .bit r.re 25, .bit r.fr 26, .bit r.cu0 28,
    .bit r.cu1 29, .of r.ups 32, .of r.kps 36, .bit r.dm 40]

theorem StatusReg.image_holds (r : StatusReg) : BitField.Holds r.image r.fields where
  le := by decide
  laid := by simp [fields, BitField.Laid, BitField.Apart]
  eq_word := by
    simp [fields, BitField.word, image, BitVec.or_assoc, Layout.statusIe, Layout.statusExl, Layout.statusKu, Layout.statusUx,
      Layout.statusXx, Layout.statusIm, Layout.statusRe, Layout.statusFr, Layout.statusCu0, Layout.statusCu1,
      Layout.statusUps, Layout.statusKps, Layout.statusDm]

theorem StatusReg.toNat_image (r : StatusReg) : r.image.toNat =
    r.ie.toNat + r.exl.toNat * 2 + r.ku.toNat * 2 ^ 4 + r.ux.toNat * 2 ^ 5 +
      r.xx.toNat * 2 ^ 6 + r.im.toNat * 2 ^ 8 + r.re.toNat * 2 ^ 25 + r.fr.toNat * 2 ^ 26 + r.cu0.toNat * 2 ^ 28 +
      r.cu1.toNat * 2 ^ 29 + r.ups.toNat * 2 ^ 32 + r.kps.toNat * 2 ^ 36 + r.dm.toNat * 2 ^ 40 := by
  rw [r.image_holds.toNat]
  simp only [fields, BitField.total_bit, BitField.total_of, BitField.total_nil]
  omega

theorem StatusReg.ofWord_eq (w : Word) : StatusReg.ofWord w =
    { ie := w.getLsbD 0, exl := w.getLsbD 1, ku := w.getLsbD 4, ux := w.getLsbD 5, xx := w.getLsbD 6
      im := w.extractLsb' 8 11, re := w.getLsbD 25, fr := w.getLsbD 26, cu0 := w.getLsbD 28, cu1 := w.getLsbD 29
      ups := w.extractLsb' 32 4, kps := w.extractLsb' 36 4, dm := w.getLsbD 40 } := rfl

theorem StatusReg.ofWord_image (r : StatusReg) : StatusReg.ofWord r.image = r := by
  have h := r.image_holds.readFrom
  simp only [fields, List.forall_mem_cons, BitField.readFrom_bit, BitField.readFrom_of] at h
  simp only [ofWord_eq, h]

/-- Cause, with the two bits that are not storage (R42, R43). -/
def CauseReg.fields (r : CauseReg) (fpi ip10 : Bool) : List BitField :=
  [.bit r.bd 63, .of r.ce 28, .bit r.nmi 27, .bit r.be 26, .bit r.vci 25, .bit fpi 24, .of r.ip 8, .bit ip10 18,
    .of r.excCode 3]

theorem CauseReg.image_holds (r : CauseReg) (fpi ip10 : Bool) : BitField.Holds (r.image fpi ip10) (r.fields fpi ip10) where
  le := by decide
  laid := by simp [fields, BitField.Laid, BitField.Apart]
  eq_word := by
    simp [fields, BitField.word, image, BitVec.or_assoc, Layout.causeBd, Layout.causeCe, Layout.causeNmi,
      Layout.causeBe, Layout.causeVci, Layout.causeFpi, Layout.causeIp, Layout.causeExcCode]

theorem CauseReg.toNat_image (r : CauseReg) (fpi ip10 : Bool) : (r.image fpi ip10).toNat =
    r.excCode.toNat * 2 ^ 3 + r.ip.toNat * 2 ^ 8 +
      ip10.toNat * 2 ^ 18 + fpi.toNat * 2 ^ 24 + r.vci.toNat * 2 ^ 25 + r.be.toNat * 2 ^ 26 + r.nmi.toNat * 2 ^ 27 +
      r.ce.toNat * 2 ^ 28 + r.bd.toNat * 2 ^ 63 := by
  rw [(r.image_holds fpi ip10).toNat]
  simp only [fields, BitField.total_bit, BitField.total_of, BitField.total_nil]
  omega

/-- BadPAddr (R36). -/
def BadPAddrReg.fields (r : BadPAddrReg) : List BitField := [.of r.addr 0, .of r.syn 40]

theorem BadPAddrReg.image_holds (r : BadPAddrReg) : BitField.Holds r.image r.fields where
  le := by decide
  laid := by simp [fields, BitField.Laid, BitField.Apart]
  eq_word := by simp [fields, BitField.word, image, Layout.badPAddrAddr, Layout.badPAddrSyn]

theorem BadPAddrReg.toNat_image (r : BadPAddrReg) : r.image.toNat = r.addr.toNat + r.syn.toNat * 2 ^ 40 := by
  rw [r.image_holds.toNat]
  simp only [fields, BitField.total_of, BitField.total_nil]
  omega

/-- DCache (R50). -/
def DCacheReg.fields (r : DCacheReg) : List BitField := [.bit r.h 63, .of r.tag 12, .of r.v 4, .bit r.e 0]

theorem DCacheReg.image_holds (r : DCacheReg) : BitField.Holds r.image r.fields where
  le := by decide
  laid := by simp [fields, BitField.Laid, BitField.Apart]
  eq_word := by
    simp [fields, BitField.word, image, BitVec.or_assoc, Layout.dCacheH, Layout.dCacheTag, Layout.dCacheV, Layout.dCacheE]

theorem DCacheReg.toNat_image (r : DCacheReg) : r.image.toNat =
    r.e.toNat + r.v.toNat * 2 ^ 4 + r.tag.toNat * 2 ^ 12 + r.h.toNat * 2 ^ 63 := by
  rw [r.image_holds.toNat]
  simp only [fields, BitField.total_bit, BitField.total_of, BitField.total_nil]
  omega

theorem DCacheReg.ofWord_eq (w : Word) : DCacheReg.ofWord w =
    { h := w.getLsbD 63, tag := w.extractLsb' 12 28, v := w.extractLsb' 4 4, e := w.getLsbD 0 } := rfl

theorem DCacheReg.ofWord_image (r : DCacheReg) : DCacheReg.ofWord r.image = r := by
  have h := r.image_holds.readFrom
  simp only [fields, List.forall_mem_cons, BitField.readFrom_bit, BitField.readFrom_of] at h
  simp only [ofWord_eq, h]

/-- TLBSet, with P where R7 leaves it free (R31). -/
def TlbSetReg.fields (r : TlbSetReg) : List BitField := [.bit r.p Layout.tlbSetP, .of r.set 0]

theorem TlbSetReg.image_holds (r : TlbSetReg) : BitField.Holds r.image r.fields where
  le := by decide
  laid := by
    obtain ⟨above_set, inside⟩ := Layout.tlbSetP_range
    simp only [fields, BitField.Laid, BitField.Apart, List.forall_mem_cons, List.not_mem_nil,
      false_implies, implies_true, BitField.pos_bit, BitField.pos_of, BitField.width_bit, BitField.width_of, and_true]
    omega
  eq_word := by simp [fields, BitField.word, image]

theorem TlbSetReg.toNat_image (r : TlbSetReg) : r.image.toNat = r.set.toNat + r.p.toNat * 2 ^ Layout.tlbSetP := by
  rw [r.image_holds.toNat]
  simp only [fields, BitField.total_bit, BitField.total_of, BitField.total_nil]
  omega

theorem TlbSetReg.ofWord_eq (w : Word) : TlbSetReg.ofWord w =
    ⟨w.getLsbD Layout.tlbSetP, w.extractLsb' 0 2⟩ := rfl

theorem TlbSetReg.ofWord_image (r : TlbSetReg) : TlbSetReg.ofWord r.image = r := by
  have h := r.image_holds.readFrom
  simp only [fields, List.forall_mem_cons, BitField.readFrom_bit, BitField.readFrom_of] at h
  simp only [ofWord_eq, h]

/-- Where the free fields of Config stand, by the numbers of the bits (R47). -/
theorem Layout.config_free_range :
    ∀ p ∈ [Layout.configPm, Layout.configIce, Layout.configSmm], p < 64 ∧ p ≠ 15 ∧ (p < 4 ∨ 11 < p) := by
  obtain ⟨hpm, hice, hsmm, -⟩ := Layout.config_positions
  have spare : ∀ p ∈ Layout.configSpare, p < 64 ∧ p ≠ 15 ∧ (p < 4 ∨ 11 < p) := by decide
  simpa using ⟨spare _ hpm, spare _ hice, spare _ hsmm⟩

theorem Layout.config_free_nodup : [Layout.configPm, Layout.configIce, Layout.configSmm].Nodup := by
  obtain ⟨-, -, -, ice_pm, smm_pm, smm_ice⟩ := Layout.config_positions
  simp [ice_pm.symm, smm_pm.symm, smm_ice.symm]

/-- Config, with the fields that hardware fixes (R47). -/
def ConfigReg.fields (r : ConfigReg) : List BitField :=
  [.of 1#1 4, .of 1#1 5, .of 2#3 6, .of 3#3 9, .bit r.be 15, .bit r.pm Layout.configPm, .bit r.ice Layout.configIce,
    .bit r.smm Layout.configSmm]

theorem ConfigReg.image_holds (r : ConfigReg) : BitField.Holds r.image r.fields where
  le := by decide
  laid := by
    obtain ⟨-, -, -, ice_pm, smm_pm, smm_ice⟩ := Layout.config_positions
    have range := Layout.config_free_range
    simp only [List.forall_mem_cons] at range
    simp only [fields, BitField.Laid, BitField.Apart, List.forall_mem_cons, List.not_mem_nil,
      false_implies, implies_true, BitField.pos_bit, BitField.pos_of, BitField.width_bit, BitField.width_of, and_true]
    omega
  eq_word := by
    simp [fields, BitField.word, image, BitVec.or_assoc, Layout.configDb, Layout.configIb,
      Layout.configDc, Layout.configIc, Layout.configBe]

theorem ConfigReg.toNat_image (r : ConfigReg) : r.image.toNat =
    1 * 2 ^ 4 + 1 * 2 ^ 5 + 2 * 2 ^ 6 + 3 * 2 ^ 9 + r.be.toNat * 2 ^ 15 +
      r.pm.toNat * 2 ^ Layout.configPm + r.ice.toNat * 2 ^ Layout.configIce + r.smm.toNat * 2 ^ Layout.configSmm := by
  rw [r.image_holds.toNat]
  have ib_db : (1#1).toNat = 1 := rfl
  have dc : (2#3).toNat = 2 := rfl
  have ic : (3#3).toNat = 3 := rfl
  simp only [fields, ib_db, dc, ic, BitField.total_bit, BitField.total_of, BitField.total_nil]
  omega

theorem ConfigReg.ofWord_eq (w : Word) : ConfigReg.ofWord w =
    { be := w.getLsbD 15, pm := w.getLsbD Layout.configPm, ice := w.getLsbD Layout.configIce
      smm := w.getLsbD Layout.configSmm } := rfl

theorem ConfigReg.ofWord_image (r : ConfigReg) : ConfigReg.ofWord r.image = r := by
  have h := r.image_holds.readFrom
  simp only [fields, List.forall_mem_cons, BitField.readFrom_bit, BitField.readFrom_of] at h
  simp only [ofWord_eq, h]

/-! ### Wired: four pairs, each in its byte -/

theorem WiredPair.toNat_image (p : WiredPair) : p.image.toNat = p.index.toNat + p.v.toNat * 2 ^ 7 := by
  have := p.index.isLt
  rw [image, BitVec.toNat_append, ← Nat.shiftLeft_add_eq_or_of_lt this, Nat.shiftLeft_eq, BitVec.toNat_ofBool,
    Nat.add_comm]

theorem WiredPair.ofByte_image (p : WiredPair) : WiredPair.ofByte p.image = p := by
  have index : p.image.extractLsb' 0 7 = p.index := BitVec.extractLsb'_append_eq_right
  have v : p.image.getLsbD 7 = p.v := by
    rw [image, BitVec.getLsbD_append]
    simp
  rw [ofByte, index, v]

/-- The pair in the byte of a word that begins at bit q. -/
theorem WiredPair.ofByte_extract (w : Word) (q : Nat) :
    WiredPair.ofByte (w.extractLsb' q 8) = ⟨w.extractLsb' q 7, w.getLsbD (q + 7)⟩ := by
  have index : (w.extractLsb' q 8).extractLsb' 0 7 = w.extractLsb' q 7 := BitVec.eq_of_getLsbD_eq fun i hi => by
    simp [hi, show i < 8 by omega]
  simp [ofByte, index]

theorem getElem_wiredOfWord (w : Word) {x : Nat} (hx : x < 4) :
    (wiredOfWord w)[x] = WiredPair.ofByte (w.extractLsb' (8 * x) 8) := by
  match x, hx with
  | 0, _ => rfl
  | 1, _ => rfl
  | 2, _ => rfl
  | 3, _ => rfl

/-- Wired: a byte for each pair (R49). -/
def wiredFields (r : Vector WiredPair 4) : List BitField :=
  [.of r[0].image 0, .of r[1].image 8, .of r[2].image 16, .of r[3].image 24]

theorem wiredImage_holds (r : Vector WiredPair 4) : BitField.Holds (wiredImage r) (wiredFields r) where
  le := by decide
  laid := by simp [wiredFields, BitField.Laid, BitField.Apart]
  eq_word := by simp [wiredFields, BitField.word, wiredImage, BitVec.or_assoc]

theorem toNat_wiredImage (r : Vector WiredPair 4) : (wiredImage r).toNat =
    r[0].index.toNat + r[0].v.toNat * 2 ^ 7 + r[1].index.toNat * 2 ^ 8 + r[1].v.toNat * 2 ^ 15 +
      r[2].index.toNat * 2 ^ 16 + r[2].v.toNat * 2 ^ 23 + r[3].index.toNat * 2 ^ 24 + r[3].v.toNat * 2 ^ 31 := by
  rw [(wiredImage_holds r).toNat]
  simp only [wiredFields, BitField.total_of, BitField.total_nil, WiredPair.toNat_image]
  omega

theorem wiredOfWord_image (r : Vector WiredPair 4) : wiredOfWord (wiredImage r) = r := by
  have h := (wiredImage_holds r).readFrom
  simp only [wiredFields, List.forall_mem_cons, BitField.readFrom_of] at h
  obtain ⟨h0, h1, h2, h3, -⟩ := h
  refine Vector.ext fun x hx => ?_
  rw [getElem_wiredOfWord _ hx]
  match x, hx with
  | 0, _ => rw [h0, WiredPair.ofByte_image]
  | 1, _ => rw [h1, WiredPair.ofByte_image]
  | 2, _ => rw [h2, WiredPair.ofByte_image]
  | 3, _ => rw [h3, WiredPair.ofByte_image]

/-! ### The 32-bit registers of the floating-point unit -/

/-- The condition codes are their bit 0 and the bits above it, which stand apart in the FSR (R54). -/
def Fsr.fields (r : Fsr) : List BitField :=
  [.of (r.fcc.extractLsb' 1 7) 25, .bit r.fs 24, .of (r.fcc.extractLsb' 0 1) 23, .bit r.e 17, .of r.cause 12, .of r.enable 7,
    .of r.flags 2, .of r.rm 0]

theorem Fsr.image_holds (r : Fsr) : BitField.Holds r.image r.fields where
  le := by decide
  laid := by simp [fields, BitField.Laid, BitField.Apart]
  eq_word := by
    simp [fields, BitField.word, image, BitVec.or_assoc, Layout.fsrFccHigh, Layout.fsrFs, Layout.fsrFccLow, Layout.fsrE,
      Layout.fsrCause, Layout.fsrEnable, Layout.fsrFlags, Layout.fsrRm]

theorem Fsr.toNat_image (r : Fsr) : r.image.toNat =
    r.rm.toNat + r.flags.toNat * 2 ^ 2 + r.enable.toNat * 2 ^ 7 + r.cause.toNat * 2 ^ 12 +
      r.e.toNat * 2 ^ 17 + r.fcc.toNat % 2 * 2 ^ 23 + r.fs.toNat * 2 ^ 24 + r.fcc.toNat / 2 * 2 ^ 25 := by
  have low : (r.fcc.extractLsb' 0 1).toNat = r.fcc.toNat % 2 := by simp
  have high : (r.fcc.extractLsb' 1 7).toNat = r.fcc.toNat / 2 := by
    have := r.fcc.isLt
    rw [BitVec.extractLsb'_toNat, Nat.shiftRight_eq_div_pow]
    omega
  rw [r.image_holds.toNat]
  simp only [fields, BitField.total_bit, BitField.total_of, BitField.total_nil, low, high]
  omega

theorem Fsr.ofWord_eq (w : BitVec 32) : Fsr.ofWord w =
    { fcc := w.extractLsb' 25 7 ++ w.extractLsb' 23 1, fs := w.getLsbD 24, e := w.getLsbD 17
      cause := w.extractLsb' 12 5, enable := w.extractLsb' 7 5, flags := w.extractLsb' 2 5, rm := w.extractLsb' 0 2 } := rfl

theorem Fsr.ofWord_image (r : Fsr) : Fsr.ofWord r.image = r := by
  have h := r.image_holds.readFrom
  simp only [fields, List.forall_mem_cons, BitField.readFrom_bit, BitField.readFrom_of] at h
  have fcc : r.fcc.extractLsb' 1 7 ++ r.fcc.extractLsb' 0 1 = r.fcc := by
    rw [BitVec.extractLsb'_append_extractLsb'_eq_extractLsb' (by rfl), BitVec.extractLsb'_eq_self]
  simp only [ofWord_eq, h, fcc]

/-- FConfig (R53). -/
def fConfigFields (imp rev : BitVec 8) : List BitField := [.of imp 8, .of rev 0]

theorem fConfigImage_holds (imp rev : BitVec 8) : BitField.Holds (fConfigImage imp rev) (fConfigFields imp rev) where
  le := by decide
  laid := by simp [fConfigFields, BitField.Laid, BitField.Apart]
  eq_word := by simp [fConfigFields, BitField.word, fConfigImage, Layout.fConfigImp, Layout.fConfigRev]

theorem toNat_fConfigImage (imp rev : BitVec 8) : (fConfigImage imp rev).toNat = rev.toNat + imp.toNat * 2 ^ 8 := by
  rw [(fConfigImage_holds imp rev).toNat]
  simp only [fConfigFields, BitField.total_of, BitField.total_nil]
  omega

/-! ## The obligation -/

/-- Settles O44, from the image of each register as its fields laid out in a word. -/
theorem registerImagesReadBack : Obligations.RegisterImagesReadBack :=
  ⟨TlbSetReg.ofWord_image, TlbLo.ofWord_image, TlbHi.ofWord_image, TrapBaseReg.ofWord_image, StatusReg.ofWord_image,
    ConfigReg.ofWord_image, DCacheReg.ofWord_image, wiredOfWord_image, Fsr.ofWord_image, TlbSetReg.toNat_image,
    Layout.tlbSetP_range, TlbLo.toNat_image, TlbHi.toNat_image, TrapBaseReg.toNat_image, StatusReg.toNat_image,
    CauseReg.toNat_image, BadPAddrReg.toNat_image, ConfigReg.toNat_image, Layout.config_free_range, Layout.config_free_nodup,
    toNat_wiredImage, DCacheReg.toNat_image, Fsr.toNat_image, toNat_fConfigImage,
    fun w => ⟨TlbSetReg.ofWord_eq w, TlbLo.ofWord_eq w, TlbHi.ofWord_eq w, TrapBaseReg.ofWord_eq w, StatusReg.ofWord_eq w,
      ConfigReg.ofWord_eq w, fun _ hx => (getElem_wiredOfWord w hx).trans (WiredPair.ofByte_extract w _),
      DCacheReg.ofWord_eq w⟩,
    Fsr.ofWord_eq⟩

end Sys2Proof.Machine

/-! PROOFS. What the state keeps from reset on: register 0 (R20), the canonical tables and the sequential program
(R55 to R58, R341), and what the rounding modes of the FSR say (R54). -/

namespace Sys2Proof.Machine
open Sys2Proof

/-! ## Every ordinary instruction has an ordinary effect -/

/-- The instructions whose effect is ordinary: all but SSNOP, which moves the windows of late writes on, LL and LLD, which set
LLbit, and those that write coprocessor 0, the TLB or the tags of the data cache. -/
def isOrdinary : Instr → Bool
  | .ssnop | .ll _ _ _ | .lld _ _ _ | .dmtc0 _ _ | .tlbr | .tlbp | .tlbw | .dctr | .dctw | .eret => false
  | _ => true

theorem Effect.of_finish {s t : State} {x : Access State} (h : x.finish s = .next t) (hx : x.Within s) : Effect s t :=
  hx.finish h

theorem State.writeProduct32_within (s : State) (a b : Word) (p : BitVec 64) : (s.writeProduct32 a b p).Within s := by
  unfold State.writeProduct32
  split
  · exact s.writeHiLo_within _ _
  · exact s.writeHiLo_within _ _

theorem State.writeQuotient32_within (s : State) (a b : Word) (corner : Bool) (q r : BitVec 32) :
    (s.writeQuotient32 a b corner q r).Within s := by
  unfold State.writeQuotient32
  split
  · exact s.writeHiLo_within _ _
  · exact s.writeHiLo_within _ _

theorem State.writeQuotient64_within (s : State) (corner : Bool) (q r : Word) :
    (s.writeQuotient64 corner q r).Within s := by
  unfold State.writeQuotient64
  split
  · exact s.writeHiLo_within _ _
  · exact s.writeHiLo_within _ _

/-- Reading HI or LO: a register is written, and no result waits any more (R279). -/
theorem Ordinary.setReg_read (s : State) (r : Reg) (v : Word) :
    Ordinary s { (s.setReg r v).advance with hiloBusy := false } := by
  have h := Ordinary.setReg s r v
  exact ⟨h.cp0, h.tlb, h.icache, h.late, h.link, h.physMap, h.dcacheWritten, h.inputs, h.draws, h.hazards, h.nmiPending,
    h.sequential, fun c => (h.canonical c).of_eq rfl rfl rfl rfl rfl rfl rfl⟩

/-- CFC1, which may first let the CPU see the FSR (R597): neither that nor the register is more than an ordinary effect. -/
theorem State.drain_writeReg_within (s : State) (c : Prop) [Decidable c] (r : Reg) (v : Word) :
    ((if c then s.drain else s).writeReg r v).Within s := by
  split
  · have h := Ordinary.setReg s.drain r v
    exact .ok ⟨h.cp0, h.tlb, h.icache, h.late, h.link, h.physMap, h.dcacheWritten, h.inputs, h.draws, h.hazards,
      h.nmiPending, h.sequential, fun c => h.canonical (c.of_eq rfl rfl rfl rfl rfl rfl rfl)⟩
  · exact s.writeReg_within r v

/-- CTC1: the FSR, or a control register that keeps nothing. -/
theorem State.writeFsr_or_advance_within (s : State) (c : Prop) [Decidable c] (w : BitVec 32) :
    (if c then s.writeFsr w else .ok s.advance).Within s := by
  split
  · exact s.writeFsr_within w
  · exact .ok (.advance_self s)

/-- An ordinary instruction has an ordinary effect, or takes an exception with nothing written but the FSR: the guards aside,
each is one of the shared operations. -/
theorem exec_effect {i : Instr} {s t : State} (hi : isOrdinary i = true) (h : exec i s = .next t) : Effect s t := by
  cases i with
  | ssnop | ll | lld | dmtc0 | tlbr | tlbp | tlbw | dctr | dctw | eret => nomatch hi
  | addu | subu | and | or | xor | nor | slt | sltu | addiu | slti | sltiu | andi | ori | xori | lui | sll | srl | sra
  | sllv | srlv | srav => cases h; exact .ordinary (.setReg s _ _)
  | daddu | dsubu | daddiu | dsll | dsrl | dsra | dsll32 | dsrl32 | dsra32 | dsllv | dsrlv | dsrav | mfc1 | dmfc0 =>
    exact .of_finish h (.bind fun _ => s.writeReg_within _ _)
  | add | sub | addi => exact .of_finish h (s.writeWordOrTrap_within _ _ _ _)
  | dadd | dsub | daddi => exact .of_finish h (.bind fun _ => s.writeDoubleOrTrap_within _ _)
  | movz | movn => exact .of_finish h (.bind fun _ => s.moveIf_within _ _ _)
  | movf | movt => exact .of_finish h (.bind fun _ => .bind fun _ => s.moveIf_within _ _ _)
  | mult | multu => exact .of_finish h (s.writeProduct32_within _ _ _)
  | dmult | dmultu => exact .of_finish h (.bind fun _ => s.writeHiLo_within _ _)
  | div | divu => exact .of_finish h (s.writeQuotient32_within _ _ _ _ _)
  | ddiv | ddivu => exact .of_finish h (.bind fun _ => s.writeQuotient64_within _ _ _)
  | mfhi | mflo => cases h; exact .ordinary (.setReg_read s _ _)
  | mthi | mtlo => cases h; exact .ordinary (.writeHiLo s _ _ s.hiloBusy)
  | lb | lbu | lh | lhu | lw => exact .of_finish h (s.load_within _ _ _ _ _)
  | lwu | ld => exact .of_finish h (.bind fun _ => s.load_within _ _ _ _ _)
  | sb | sh | sw => exact .of_finish h (s.store_within _ _ _ _)
  | sd => exact .of_finish h (.bind fun _ => s.store_within _ _ _ _)
  | lwl | lwr => exact .of_finish h (s.loadPart_within _ _ _ _ _ _)
  | ldl | ldr => exact .of_finish h (.bind fun _ => s.loadPart_within _ _ _ _ _ _)
  | swl | swr => exact .of_finish h (s.storePart_within _ _ _ _ _ _)
  | sdl | sdr => exact .of_finish h (.bind fun _ => s.storePart_within _ _ _ _ _ _)
  | sc => exact .of_finish h (s.storeConditional_within _ _ _ _)
  | scd => exact .of_finish h (.bind fun _ => s.storeConditional_within _ _ _ _)
  | sync => cases h; exact .ordinary (.advance_self s)
  | pref => exact .of_finish h (.bind fun _ => s.prefetch_within _ _)
  | pfetch => exact .of_finish h (.bind fun _ => .bind fun _ => s.prefetch_within _ _)
  | j | jr => exact .of_finish h (.bind fun _ => .ok (.branchTo s _))
  | jal => exact .of_finish h (.bind fun _ => .ok (.link_branchTo s _ _ _))
  | jalr => exact .of_finish h (.bind fun _ => .bind fun _ => .ok (.link_branchTo s _ _ _))
  | beq | bne | blez | bgtz | bltz | bgez => exact .of_finish h (.bind fun _ => s.branchIf_within _ _)
  | beql | bnel | blezl | bgtzl | bltzl | bgezl => exact .of_finish h (.bind fun _ => s.branchLikelyIf_within _ _)
  | bltzal | bgezal => exact .of_finish h (.bind fun _ => .bind fun _ => s.link_branchIf_within _ _ _)
  | bltzall | bgezall => exact .of_finish h (.bind fun _ => .bind fun _ => s.link_branchLikelyIf_within _ _ _)
  | bc1f | bc1t => exact .of_finish h (.bind fun _ => .bind fun _ => .bind fun _ => s.branchIf_within _ _)
  | bc1fl | bc1tl => exact .of_finish h (.bind fun _ => .bind fun _ => .bind fun _ => s.branchLikelyIf_within _ _)
  | tge | tgeu | tlt | tltu | teq | tne | tgei | tgeiu | tlti | tltiu | teqi | tnei =>
    exact .of_finish h (s.trapIf_within _)
  | syscall | brk => cases h; exact .exception _ s.fsr
  | addS | addD | subS | subD | mulS | mulD | divS | divD =>
    exact .of_finish h (.bind fun _ => s.floatBinary_within _ _ _ _ _)
  | sqrtS | sqrtD | absS | absD | negS | negD | roundWS | roundWD | truncWS | truncWD | ceilWS | ceilWD | floorWS | floorWD
  | cvtWS | cvtWD | cvtSD | cvtDS | cvtSW | cvtDW => exact .of_finish h (.bind fun _ => s.floatUnary_within _ _ _ _ _)
  | recipS | recipD | rsqrtS | rsqrtD | roundLS | roundLD | truncLS | truncLD | ceilLS | ceilLD | floorLS | floorLD
  | cvtLS | cvtLD | cvtSL | cvtDL => exact .of_finish h (.bind fun _ => .bind fun _ => s.floatUnary_within _ _ _ _ _)
  | maddS | maddD | msubS | msubD | nmaddS | nmaddD | nmsubS | nmsubD =>
    exact .of_finish h (.bind fun _ => .bind fun _ => s.floatTernary_within _ _ _ _ _ _)
  | cFS | cUnS | cEqS | cUeqS | cOltS | cUltS | cOleS | cUleS | cSfS | cNgleS | cSeqS | cNglS | cLtS | cNgeS | cLeS | cNgtS
  | cFD | cUnD | cEqD | cUeqD | cOltD | cUltD | cOleD | cUleD | cSfD | cNgleD | cSeqD | cNglD | cLtD | cNgeD | cLeD
  | cNgtD => exact .of_finish h (.bind fun _ => .bind fun _ => s.floatCompare_within _ _ _ _ _ _)
  | lwc1 => exact .of_finish h (.bind fun _ => s.loadFprWord_within _ _ _)
  | ldc1 => exact .of_finish h (.bind fun _ => s.loadFpr_within _ _ _)
  | swc1 => exact .of_finish h (.bind fun _ => s.storeFprWord_within _ _ _)
  | sdc1 => exact .of_finish h (.bind fun _ => s.storeFpr_within _ _ _)
  | lwxc1 => exact .of_finish h (.bind fun _ => .bind fun _ => s.loadFprWord_within _ _ _)
  | ldxc1 => exact .of_finish h (.bind fun _ => .bind fun _ => s.loadFpr_within _ _ _)
  | swxc1 => exact .of_finish h (.bind fun _ => .bind fun _ => s.storeFprWord_within _ _ _)
  | sdxc1 => exact .of_finish h (.bind fun _ => .bind fun _ => s.storeFpr_within _ _ _)
  | dmfc1 => exact .of_finish h (.bind fun _ => .bind fun _ => .bind fun _ => s.writeReg_within _ _)
  | cfc1 => exact .of_finish h (.bind fun _ => s.drain_writeReg_within _ _ _)
  | mtc1 => exact .of_finish h (.bind fun _ => s.moveFprWord_within _ _)
  | dmtc1 => exact .of_finish h (.bind fun _ => .bind fun _ => .bind fun _ => s.moveFpr_within _ _)
  | ctc1 => exact .of_finish h (.bind fun _ => s.writeFsr_or_advance_within _ _)
  | movS => exact .of_finish h (.bind fun _ => s.moveSingle_within _ _)
  | movD => exact .of_finish h (.bind fun _ => s.moveDouble_within _ _)
  | movfS | movtS | movzS | movnS => exact .of_finish h (.bind fun _ => .bind fun _ => s.moveSingleIf_within _ _ _)
  | movfD | movtD | movzD | movnD => exact .of_finish h (.bind fun _ => .bind fun _ => s.moveDoubleIf_within _ _ _)

/-! ## Canonical tables and a sequential program -/

/-- What a way from one state to the next must show: the tables keep their canonical form, and the program is sequential outside
a delay slot, wherever it went. -/
structure Settled (s t : State) : Prop where
  canonical : Canonical s → Canonical t
  sequential : Sequential t

theorem takeException_settled (e : Exc) (s : State) : Settled s (takeException e s) :=
  ⟨fun h => h.of_eq rfl rfl rfl rfl rfl rfl rfl, fun _ => rfl⟩

theorem takeNmi_settled (s : State) : Settled s (takeNmi s) :=
  ⟨fun h => h.of_eq rfl rfl rfl rfl rfl rfl rfl, fun _ => rfl⟩

theorem returnFromException_settled (s : State) : Settled s (returnFromException s) :=
  ⟨fun h => h.of_eq rfl rfl rfl rfl rfl rfl rfl, fun _ => rfl⟩

/-- Sequential completion of a state whose tables have their form. -/
theorem Settled.advance {s t : State} (h : Canonical s → Canonical t) : Settled s t.advance :=
  ⟨fun c => (h c).of_eq rfl rfl rfl rfl rfl rfl rfl, fun _ => rfl⟩

theorem Ordinary.settled {s t : State} (h : Ordinary s t) : Settled s t := ⟨h.canonical, h.sequential⟩

theorem Effect.settled {s t : State} : Effect s t → Settled s t
  | .ordinary h => h.settled
  | .exception e f =>
    have h := takeException_settled e { s with fsr := f }
    ⟨fun c => h.canonical (c.of_eq rfl rfl rfl rfl rfl rfl rfl), h.sequential⟩

/-- An instruction settles where each value of its parts does: its exceptions are taken from the state before it. -/
theorem Settled.of_finish {s t : State} {x : Access State} (h : x.finish s = .next t)
    (hx : ∀ u, x = .ok u → Settled s u) : Settled s t := by
  obtain h | ⟨e, -, rfl⟩ := Access.finish_eq_next h
  · exact hx t h
  · exact takeException_settled e s

/-- One guard or part of an instruction less. -/
theorem Settled.of_bind {α : Type} {s t : State} {x : Access α} {f : α → Access State} (h : x.bind f = .ok t)
    (hf : ∀ a, f a = .ok t → Settled s t) : Settled s t := by
  obtain ⟨a, -, ha⟩ := Access.bind_eq_ok.mp h
  exact hf a ha

theorem Canonical.setTlbEntry {s : State} (h : Canonical s) (index : BitVec 7) (set : BitVec 2) (e : TlbEntry) :
    Canonical (s.setTlbEntry index set e) :=
  ⟨h.mem, h.byteOrder, CMap.wf_set _ _ _ h.tlb, h.icache, h.dcache, h.dcacheWritten, h.scache⟩

theorem Canonical.setDline {s : State} (h : Canonical s) (k : Nat) (l : DCacheLine) : Canonical (s.setDline k l) :=
  h.cacheOnly (s.setDline_lineOnly k l).cacheOnly

theorem Canonical.setIline {s : State} (h : Canonical s) (k : Nat) (l : ICacheLine) : Canonical (s.setIline k l) :=
  ⟨h.mem, h.byteOrder, h.tlb, CMap.wf_set _ _ _ h.icache, h.dcache, h.dcacheWritten, h.scache⟩

theorem Canonical.dcacheMark {s : State} (h : Canonical s) (va : Word) :
    CMap.wf dcacheUnwritten (s.dcacheMark va) = true := CMap.wf_set _ _ _ h.dcacheWritten

/-! ### The instructions that are not ordinary -/

theorem execSsnop_settled {s t : State} (h : execSsnop s = .next t) : Settled s t := by
  cases h
  exact ⟨fun c => c.of_eq rfl rfl rfl rfl rfl rfl rfl, fun _ => rfl⟩

/-- A load that links settles as the load it is: LLbit and the record of its access are no table. -/
theorem State.loadLinked_settled {s t : State} {n : Nat} {f : Word → Word} {rt base : Reg} {off : Word}
    (h : s.loadLinked n f rt base off = .ok t) : Settled s t := by
  obtain ⟨a, -, -, rfl⟩ := State.loadLinked_eq_ok.mp h
  have hl : Ordinary s (s.loadFrom a n f rt) := .cacheOnly (s.loadInt_cacheOnly a.1 a.2 n) _ _
  exact ⟨fun c => (hl.canonical c).of_eq rfl rfl rfl rfl rfl rfl rfl, hl.sequential⟩

theorem execLl_settled {base rt : Reg} {off : BitVec 16} {s t : State} (h : execLl base rt off s = .next t) :
    Settled s t := .of_finish h fun _ => State.loadLinked_settled

theorem execLld_settled {base rt : Reg} {off : BitVec 16} {s t : State} (h : execLld base rt off s = .next t) :
    Settled s t := .of_finish h fun _ h => .of_bind h fun _ => State.loadLinked_settled

theorem execDmtc0_settled {rt rd : Reg} {s t : State} (h : execDmtc0 rt rd s = .next t) : Settled s t := by
  refine .of_finish h fun u h => .of_bind h fun _ h => ?_
  split at h <;> cases h
  exact .advance (·.of_eq rfl rfl rfl rfl rfl rfl rfl)

theorem execTlbr_settled {s t : State} (h : execTlbr s = .next t) : Settled s t := by
  refine .of_finish h fun u h => .of_bind h fun _ h => .of_bind h fun _ h => .of_bind h fun i h => ?_
  cases h
  exact .advance (·.of_eq rfl rfl rfl rfl rfl rfl rfl)

theorem execTlbp_settled {s t : State} (h : execTlbp s = .next t) : Settled s t := by
  refine .of_finish h fun u h => .of_bind h fun _ h => .of_bind h fun i h => ?_
  split at h <;> cases h
  · exact .advance (·.of_eq rfl rfl rfl rfl rfl rfl rfl)
  · exact .advance (·.of_eq rfl rfl rfl rfl rfl rfl rfl)

theorem execTlbw_settled {s t : State} (h : execTlbw s = .next t) : Settled s t := by
  refine .of_finish h fun u h => .of_bind h fun _ h => .of_bind h fun _ h => .of_bind h fun i h => ?_
  cases h
  exact .advance (·.setTlbEntry _ _ _)

theorem execDctr_settled {s t : State} (h : execDctr s = .next t) : Settled s t := by
  refine .of_finish h fun u h => .of_bind h fun _ h => ?_
  cases h
  exact ⟨fun c => c.of_eq rfl rfl rfl rfl rfl rfl rfl, fun _ => rfl⟩

/-- DCTW writes a line, and marks its half line as written. -/
theorem execDctw_settled {s t : State} (h : execDctw s = .next t) : Settled s t := by
  refine .of_finish h fun u h => .of_bind h fun _ h => ?_
  cases h
  refine ⟨fun c => ?_, fun _ => rfl⟩
  have hd := c.setDline (dcacheIndex s.cp0.vAddr)
    ((s.dline (dcacheIndex s.cp0.vAddr)).writeHalf (s.cp0.vAddr.getLsbD 4) s.cp0.dCache)
  exact ⟨hd.mem, hd.byteOrder, hd.tlb, hd.icache, hd.dcache, c.dcacheMark _, hd.scache⟩

theorem execEret_settled {s t : State} (h : execEret s = .next t) : Settled s t := by
  refine .of_finish h fun u h => .of_bind h fun _ h => .of_bind h fun _ h => ?_
  cases h
  exact returnFromException_settled s

/-- Every instruction. -/
theorem exec_settled {i : Instr} {s t : State} (h : exec i s = .next t) : Settled s t := by
  cases hi : isOrdinary i with
  | true => exact (exec_effect hi h).settled
  | false =>
    cases i with
    | ssnop => exact execSsnop_settled h
    | ll => exact execLl_settled h
    | lld => exact execLld_settled h
    | dmtc0 => exact execDmtc0_settled h
    | tlbr => exact execTlbr_settled h
    | tlbp => exact execTlbp_settled h
    | tlbw => exact execTlbw_settled h
    | dctr => exact execDctr_settled h
    | dctw => exact execDctw_settled h
    | eret => exact execEret_settled h
    | _ => nomatch hi

/-! ### Between two instructions -/

/-- A hard reset keeps memory and its byte-order record, and empties the other tables. -/
theorem Canonical.hardReset {s : State} (h : Canonical s) : Canonical s.hardReset :=
  ⟨h.mem, h.byteOrder, rfl, rfl, rfl, rfl, rfl⟩

theorem Canonical.receive {s : State} (h : Canonical s) (e : BusEvent) : Canonical (s.receive e) := by
  cases e with
  | idle => exact h
  | interruptStatus => exact h.of_eq rfl rfl rfl rfl rfl rfl rfl
  | invalidateDCache line => exact (h.setDline line.toNat _).of_eq rfl rfl rfl rfl rfl rfl rfl
  | parityError => exact h.of_eq rfl rfl rfl rfl rfl rfl rfl
  | hardReset => exact h.hardReset

theorem Canonical.takeInput {s : State} (h : Canonical s) : Canonical s.takeInput := by
  cases hi : s.inputs with
  | nil => rw [State.takeInput_none hi]; exact h
  | cons e rest =>
    rw [State.takeInput_some hi]
    exact Canonical.receive (s := { s with inputs := rest }) (h.of_eq rfl rfl rfl rfl rfl rfl rfl) e

theorem Canonical.postViolation {s : State} (h : Canonical s) : Canonical s.postViolation := by
  obtain ⟨n, hn, e⟩ := s.postViolation_eq
  rw [e]
  obtain rfl | hp := n.eq_zero_or_pos
  · rw [State.postViolations_zero]; exact h
  · rw [s.postViolations_pos hp hn]; exact h.of_eq rfl rfl rfl rfl rfl rfl rfl

theorem Canonical.followFpi {s : State} (h : Canonical s) : Canonical s.followFpi := by
  obtain e | e := s.followFpi_eq <;> rw [e]
  · exact h
  · exact h.of_eq rfl rfl rfl rfl rfl rfl rfl

theorem Canonical.tick {s : State} (h : Canonical s) : Canonical s.tick := by
  obtain ⟨n, e⟩ := s.tick_eq
  rw [e]
  exact h.of_eq rfl rfl rfl rfl rfl rfl rfl

theorem Canonical.draw {s : State} (h : Canonical s) : Canonical s.draw := h.of_eq rfl rfl rfl rfl rfl rfl rfl

theorem Canonical.boundary {s : State} (h : Canonical s) : Canonical s.boundary :=
  h.draw.takeInput.postViolation.followFpi.tick

/-! ### The fetch and the step -/

/-- A fetch that gives a word leaves the state as it is, or installs a line that came through the streaming cache. -/
theorem Canonical.fetch {s : State} (h : Canonical s) {r : IWord × State} (hf : s.fetch = .ok r) : Canonical r.2 := by
  unfold State.fetch at hf
  split at hf
  · cases hf
  · split at hf
    · cases hf
    · split at hf
      · cases hf
        exact h
      · obtain ⟨t, -, ht⟩ := Access.bind_eq_ok.mp hf
        cases ht
        exact (h.cacheOnly (s.fetchSynonym_cacheOnly s.pc t)).setIline _ _

theorem runInstr_settled {i : Instr} {s t : State} (h : runInstr i s = .next t) : Settled s t := by
  unfold runInstr at h
  split at h
  · cases h
  · have hs := exec_settled h
    exact ⟨fun c => hs.canonical (c.of_eq rfl rfl rfl rfl rfl rfl rfl), hs.sequential⟩

theorem runWord_settled {w : IWord} {s t : State} (h : runWord w s = .next t) : Settled s t := by
  unfold runWord at h
  split at h
  · exact runInstr_settled h
  · cases h
    exact takeException_settled _ s

theorem fetchAndRun_settled {s t : State} (h : fetchAndRun s = .next t) : Settled s t := by
  unfold fetchAndRun at h
  split at h
  · next r hr =>
    have hs := runWord_settled h
    exact ⟨fun c => hs.canonical (c.fetch hr).draw, hs.sequential⟩
  · cases h
    exact takeException_settled _ s
  · cases h
  · cases h

theorem stepFrom_settled {s t : State} (h : stepFrom s = .next t) : Settled s t := by
  unfold stepFrom at h
  split at h
  · cases h
    exact takeNmi_settled s
  · split at h
    · cases h
      exact takeException_settled _ s
    · exact fetchAndRun_settled h

/-- Settles O7: what happens between two instructions keeps the tables, and every way a step can end settles. -/
theorem tablesStayCanonical : Obligations.TablesStayCanonical := by
  intro s t canonical _ h
  have hs : Settled s.boundary t := stepFrom_settled h
  exact ⟨hs.canonical canonical.boundary, hs.sequential⟩

/-! ## Reset -/

/-- Settles O8: the tables are empty at reset. -/
theorem resetHoldsInvariant : Obligations.ResetHoldsInvariant :=
  ⟨⟨rfl, rfl, rfl, rfl, rfl, rfl, rfl⟩, fun _ => rfl⟩

/-- Settles O9, by the fields of the reset state. -/
theorem resetState : Obligations.ResetState := ⟨rfl, rfl, rfl, rfl, rfl⟩

/-! ## Register 0 -/

/-- Settles O10, from what a register reads after a write. -/
theorem zeroRegister : Obligations.ZeroRegister := fun s v =>
  ⟨s.reg_zero, s.setReg_zero v, fun r _ hr =>
    ⟨(s.reg_setReg_same r v).trans (if_neg hr), fun hq => s.reg_setReg_other v hq⟩⟩

/-! ## Rounding -/

/-- A rounding that reports no bits below is inexact when the power of 2 does not divide the number. -/
theorem roundShift_inexact (rm : BitVec 2) (neg : Bool) (m k : Nat) :
    (roundShift rm neg m k false).2 = true ↔ m % 2 ^ k ≠ 0 := by
  unfold roundShift
  split
  · next hk => simp [hk, Nat.mod_one]
  · simp

/-- Toward zero: the integer below. -/
theorem roundShift_towardZero (neg : Bool) (m k : Nat) : (roundShift 1 neg m k false).1 = m / 2 ^ k := by
  unfold roundShift
  split
  · next hk => simp [hk]
  · simp

/-- Toward +infinity: the integer above for a positive number that is not exact. -/
theorem roundShift_up (neg : Bool) (m k : Nat) : (roundShift 2 neg m k false).1 =
    if neg = false ∧ m % 2 ^ k ≠ 0 then m / 2 ^ k + 1 else m / 2 ^ k := by
  unfold roundShift
  split
  · next hk => simp [hk, Nat.mod_one]
  · simp [and_comm]

/-- Toward -infinity: the integer above, in magnitude, for a negative number that is not exact. -/
theorem roundShift_down (neg : Bool) (m k : Nat) : (roundShift 3 neg m k false).1 =
    if neg = true ∧ m % 2 ^ k ≠ 0 then m / 2 ^ k + 1 else m / 2 ^ k := by
  unfold roundShift
  split
  · next hk => simp [hk, Nat.mod_one]
  · simp [and_comm]

/-- To nearest: the integer above when the rest is more than half, or is half and the integer below is odd. -/
theorem roundShift_nearest (neg : Bool) (m j : Nat) : (roundShift 0 neg m (j + 1) false).1 =
    if 2 ^ j < m % 2 ^ (j + 1) ∨ m % 2 ^ (j + 1) = 2 ^ j ∧ m / 2 ^ (j + 1) % 2 = 1 then m / 2 ^ (j + 1) + 1
    else m / 2 ^ (j + 1) := by
  unfold roundShift
  simp

/-- To nearest, the quotient is off by at most half a unit. -/
theorem roundShift_nearest_close (neg : Bool) (m k : Nat) :
    (roundShift 0 neg m k false).1 * 2 ^ k ≤ m + 2 ^ k / 2 ∧ m ≤ (roundShift 0 neg m k false).1 * 2 ^ k + 2 ^ k / 2 := by
  cases k with
  | zero => simp [roundShift]
  | succ j =>
    have half : 2 ^ (j + 1) / 2 = 2 ^ j := by rw [Nat.pow_succ, Nat.mul_div_cancel _ (by decide)]
    have unit : 2 ^ (j + 1) = 2 ^ j + 2 ^ j := by rw [Nat.pow_succ, Nat.mul_two]
    have split_m : m / 2 ^ (j + 1) * 2 ^ (j + 1) + m % 2 ^ (j + 1) = m := Nat.div_add_mod' m _
    have rest : m % 2 ^ (j + 1) < 2 ^ (j + 1) := Nat.mod_lt _ (Nat.two_pow_pos _)
    rw [roundShift_nearest, half]
    split
    · rw [Nat.add_mul, Nat.one_mul]
      omega
    · omega

/-- To nearest, a tie gives an even quotient. -/
theorem roundShift_nearest_tie (neg : Bool) {m k : Nat} (hk : 0 < k) (tie : m % 2 ^ k = 2 ^ (k - 1)) :
    (roundShift 0 neg m k false).1 % 2 = 0 := by
  obtain ⟨j, rfl⟩ : ∃ j, k = j + 1 := ⟨k - 1, by omega⟩
  rw [Nat.add_sub_cancel] at tie
  rw [roundShift_nearest, tie]
  split <;> omega

/-- Settles O54, from what the quotient is in each mode. -/
theorem roundingModes : Obligations.RoundingModes := fun neg m k =>
  ⟨roundShift_nearest_close neg m k, roundShift_nearest_tie neg, roundShift_towardZero neg m k, roundShift_up neg m k,
    roundShift_down neg m k, fun rm => roundShift_inexact rm neg m k⟩

end Sys2Proof.Machine

/-! PROOFS. Data addresses: how they are formed and checked, which are legal, how the TLB translates them, and what a failed
translation loads (R103, R106, R112, R130 to R136). -/

namespace Sys2Proof.Machine

/-! ## Forming a data address -/

theorem State.addrCalc_regionChange (s : State) (kind : AccessKind) {base : Reg} {off : Word}
    (plain : ¬(base = 0 ∧ off.msb = true))
    (region : regionOf (s.reg base + off) ≠ regionOf (s.reg base)) :
    s.addrCalc kind base off = .raise (kind.addressError (s.reg base + off)) := by
  rw [State.addrCalc, if_neg plain, if_pos region]

theorem State.addrCalc_sameRegion (s : State) (kind : AccessKind) {base : Reg} {off : Word}
    (plain : ¬(base = 0 ∧ off.msb = true))
    (region : regionOf (s.reg base + off) = regionOf (s.reg base)) :
    s.addrCalc kind base off = .ok (s.reg base + off, false) := by
  rw [State.addrCalc, if_neg plain, if_neg (not_not.mpr region)]

theorem State.addrCalc_r0neg_user {s : State} (kind : AccessKind) {base : Reg} {off : Word} (r0 : base = 0)
    (neg : off.msb = true) (user : s.user = true) :
    s.addrCalc kind base off = .raise (kind.addressError (s.reg base + off)) := by
  rw [State.addrCalc, if_pos ⟨r0, neg⟩, if_pos user]

theorem State.addrCalc_r0neg_kernel {s : State} (kind : AccessKind) {base : Reg} {off : Word} (r0 : base = 0)
    (neg : off.msb = true) (kernel : s.user = false) :
    s.addrCalc kind base off = .ok (3#2 ++ (s.reg base + off).extractLsb' 0 62, true) := by
  rw [State.addrCalc, if_pos ⟨r0, neg⟩, if_neg (by simp [kernel])]

theorem State.dataAddress_of_raise {s : State} {kind : AccessKind} {n : Nat} {base : Reg} {off : Word} {e : Exc}
    (h : s.addrCalc kind base off = .raise e) : s.dataAddress kind n base off = .raise e := by
  rw [State.dataAddress, h, Access.bind_raise]

/-- An address that is formed is checked for its alignment; then the translation decides. -/
theorem State.dataAddress_of_formed {s : State} {kind : AccessKind} {n : Nat} {base : Reg} {off va : Word} {neg : Bool}
    (h : s.addrCalc kind base off = .ok (va, neg)) :
    (va.toNat % n ≠ 0 → s.dataAddress kind n base off = .raise (kind.addressError va)) ∧
    (va.toNat % n = 0 → (∀ t, s.translate kind va neg = .ok t → s.dataAddress kind n base off = .ok (va, t)) ∧
      (∀ e, s.translate kind va neg = .raise e → s.dataAddress kind n base off = .raise e) ∧
      (∀ r, s.translate kind va neg = .refuse r → s.dataAddress kind n base off = .refuse r) ∧
      ∀ f, s.translate kind va neg = .fault f → s.dataAddress kind n base off = .fault f) := by
  refine ⟨State.dataAddress_misaligned h, fun aligned => ?_⟩
  have he : s.dataAddress kind n base off = (s.translate kind va neg).bind fun t => .ok (va, t) := by
    rw [State.dataAddress, h, Access.bind_ok, if_neg (not_not.mpr aligned)]
  rw [he]
  refine ⟨fun t ht => ?_, fun e ht => ?_, fun r ht => ?_, fun f ht => ?_⟩ <;> rw [ht] <;> rfl

theorem AccessKind.code_addressError (kind : AccessKind) (va : Word) :
    (kind.addressError va).code = if kind = .store then 5 else 4 := by
  cases kind <;> rfl

/-- Settles O27: AddrCalc in each of its four cases, then the alignment check and the translation. -/
theorem addressFormation : Obligations.AddressFormation := fun s kind _ _ _ =>
  ⟨fun plain region => State.dataAddress_of_raise (s.addrCalc_regionChange kind plain region),
    fun r0 neg user => State.dataAddress_of_raise (State.addrCalc_r0neg_user kind r0 neg user),
    fun r0 neg kernel => State.dataAddress_of_formed (State.addrCalc_r0neg_kernel kind r0 neg kernel),
    fun plain region => State.dataAddress_of_formed (s.addrCalc_sameRegion kind plain region),
    kind.code_addressError _⟩

/-! ## Legal addresses -/

theorem toNat_extractLsb' (v : Word) (p n : Nat) : (v.extractLsb' p n).toNat = v.toNat / 2 ^ p % 2 ^ n := by
  rw [BitVec.extractLsb'_toNat, Nat.shiftRight_eq_div_pow]

theorem toNat_regionOf (va : Word) : (regionOf va).toNat = va.toNat / 2 ^ 62 := by
  rw [regionOf, toNat_extractLsb']
  omega

/-- The region of an address is a literal one just when the number above bit 61 is. -/
theorem regionOf_eq_iff (va : Word) (r : BitVec 2) : regionOf va = r ↔ va.toNat / 2 ^ 62 = r.toNat := by
  rw [← BitVec.toNat_inj, toNat_regionOf]

theorem extractLsb'_eq_iff (v : Word) (p n : Nat) (x : BitVec n) :
    v.extractLsb' p n = x ↔ v.toNat / 2 ^ p % 2 ^ n = x.toNat := by
  rw [← BitVec.toNat_inj, toNat_extractLsb']

theorem legalPhysical_iff (va : Word) : legalPhysical va = true ↔
    (va.toNat / 2 ^ 59 % 8 = 0 ∨ 2 ≤ va.toNat / 2 ^ 59 % 8 ∧ va.toNat / 2 ^ 59 % 8 ≤ 5) ∧
      va.toNat / 2 ^ 40 % 2 ^ 19 = 0 := by
  simp only [legalPhysical, Bool.and_eq_true, Bool.or_eq_true, beq_iff_eq, extractLsb'_eq_iff, BitVec.ofNat_eq_ofNat,
    BitVec.toNat_ofNat, Nat.zero_mod]
  omega

theorem legalAddress_iff (va : Word) (user : Bool) : legalAddress va user = true ↔
    (user = true → va.toNat / 2 ^ 62 = 0) ∧
    (va.toNat / 2 ^ 62 ≤ 1 → va.toNat / 2 ^ 48 % 2 ^ 14 = 0) ∧
    (va.toNat / 2 ^ 62 = 3 → va.toNat / 2 ^ 48 % 2 ^ 14 = 0 ∨ va.toNat / 2 ^ 48 % 2 ^ 14 = 2 ^ 14 - 1) ∧
    (va.toNat / 2 ^ 62 = 2 → legalPhysical va = true) := by
  have region : va.toNat / 2 ^ 62 = 0 ∨ va.toNat / 2 ^ 62 = 1 ∨ va.toNat / 2 ^ 62 = 2 ∨ va.toNat / 2 ^ 62 = 3 := by omega
  simp only [legalAddress, Bool.or_eq_true, Bool.and_eq_true, beq_iff_eq, bne_iff_ne, ne_eq, regionOf_eq_iff]
  rcases region with h | h | h | h <;> simp only [h]
  · simp [extractLsb'_eq_iff]
  · cases user <;> simp [extractLsb'_eq_iff]
  · cases user <;> simp
  · cases user <;> simp [extractLsb'_eq_iff]

/-- Settles O28: the legal addresses in numbers, and what the translation answers to the others and to those of region 10. -/
theorem legalAndPhysicalAddresses : Obligations.LegalAndPhysicalAddresses := by
  refine ⟨fun s kind va neg user => ⟨?_, fun illegal => ?_⟩, fun s kind va neg => s.translate_physical kind neg⟩
  · rw [legalAddress_iff, legalPhysical_iff]
  · rw [s.translate_illegal kind neg illegal]
    cases kind <;> rfl

/-! ## What a TLB exception loads -/

theorem toNat_maskVpn (v : BitVec 29) (k : Nat) :
    (maskVpn v k).toNat = v.toNat / 2 ^ (k - 19) * 2 ^ (k - 19) := by
  rw [maskVpn, BitVec.toNat_shiftLeft, BitVec.toNat_ushiftRight, Nat.shiftLeft_eq, Nat.shiftRight_eq_div_pow]
  exact Nat.mod_eq_of_lt (Nat.lt_of_le_of_lt (Nat.div_mul_le_self _ _) v.isLt)

theorem toNat_vpnOf (va : Word) : (vpnOf va).toNat = va.toNat / 2 ^ 19 % 2 ^ 29 := toNat_extractLsb' va 19 29

/-- The page number that a TLB exception leaves in EntryHi is that of the address, the bits inside a page of 1 MB or more zeroed. -/
theorem toNat_maskVpn_vpnOf (va : Word) (k : Nat) : (maskVpn (vpnOf va) k).toNat * 2 ^ 19 =
    va.toNat % 2 ^ 48 / 2 ^ (max k 19) * 2 ^ (max k 19) := by
  have page : va.toNat / 2 ^ 19 % 2 ^ 29 = va.toNat % 2 ^ 48 / 2 ^ 19 := by omega
  rw [toNat_maskVpn, toNat_vpnOf, page, Nat.div_div_eq_div_mul, Nat.mul_assoc, ← Nat.pow_add, ← Nat.pow_add,
    show max k 19 = 19 + (k - 19) by omega, Nat.add_comm (k - 19)]

/-- Every TLB exception loads the four registers; the refill alone loads EntryLo too. -/
theorem Exc.load_tlb {e : Exc} {st : Bool} {va : Word} {k : Nat} {w : BitVec 2} (draws : Nat) (c : Cop0)
    (h : e = .tlbRefill st va k w ∨ e = .tlbInvalid st va k w ∨ e = .tlbModified va k w) :
    ∃ lo, e.load draws c = { c.loadTlbFailure va k w with entryLo := lo } ∧
      ((∀ st', e ≠ .tlbRefill st' va k w) → lo = c.entryLo) := by
  rcases h with rfl | rfl | rfl
  · exact ⟨_, rfl, fun not_refill => absurd rfl (not_refill st)⟩
  · exact ⟨c.entryLo, rfl, fun _ => rfl⟩
  · exact ⟨c.entryLo, rfl, fun _ => rfl⟩

/-- Settles O37, from what each event loads. -/
theorem tlbExceptionRegisters : Obligations.TlbExceptionRegisters := by
  intro s st va k w _ small
  refine ⟨fun e he => ?_, fun e he => ?_⟩
  · obtain ⟨lo, load, keeps⟩ := Exc.load_tlb s.draws s.cp0 he
    rw [takeException_cp0, load]
    refine ⟨rfl, toNat_regionOf va, toNat_maskVpn_vpnOf va k, rfl, rfl, rfl, ?_, keeps⟩
    exact (BitVec.toNat_ofNat k 5).trans (Nat.mod_eq_of_lt (by omega))
  · rw [takeException_cp0]
    rcases he with rfl | rfl <;> exact ⟨rfl, rfl, rfl, rfl, rfl⟩

/-! ## The TLB -/

theorem getLsbD_tlbIndex (asid : BitVec 8) (va : Word) (k : Nat) {n : Nat} (hn : n < 7) :
    (tlbIndex asid va k).getLsbD n = (va.getLsbD (k + n) ^^ (regionOf va != 3 && asid.getLsbD n)) := by
  unfold tlbIndex
  split
  · next global => simp [hn, global]
  · next asids =>
    rw [bne_iff_ne.mpr asids, Bool.true_and]
    simp [hn]

theorem maskVpn_eq_iff (a b : BitVec 29) (k : Nat) :
    maskVpn a k = maskVpn b k ↔ a.toNat / 2 ^ (k - 19) = b.toNat / 2 ^ (k - 19) := by
  rw [← BitVec.toNat_inj, toNat_maskVpn, toNat_maskVpn]
  exact ⟨Nat.mul_right_cancel (Nat.two_pow_pos _), fun h => by rw [h]⟩

theorem tlbMatch_iff (e : TlbHi) (asid : BitVec 8) (va : Word) (k : Nat) : tlbMatch e asid va k = true ↔
    e.r = regionOf va ∧ e.vpn.toNat / 2 ^ (k - 19) = va.toNat / 2 ^ 19 % 2 ^ 29 / 2 ^ (k - 19) ∧
      (regionOf va = 3 ∨ e.asid = asid) := by
  simp only [tlbMatch, Bool.and_eq_true, Bool.or_eq_true, beq_iff_eq, maskVpn_eq_iff, toNat_vpnOf, and_assoc]

/-- There are three sets. -/
theorem mem_sets_iff : ∀ w : BitVec 2, w ∈ ([0, 1, 2] : List (BitVec 2)) ↔ w ≠ 3 := by decide

theorem State.mem_tlbMatches (s : State) (index : BitVec 7) (va : Word) (k : Nat) (w : BitVec 2) :
    w ∈ s.tlbMatches index va k ↔ w ≠ 3 ∧ tlbMatch (s.tlbEntry index w).hi s.cp0.entryHi.asid va k = true := by
  rw [State.tlbMatches, List.mem_filter, mem_sets_iff]

theorem State.tlbMatches_nodup (s : State) (index : BitVec 7) (va : Word) (k : Nat) : (s.tlbMatches index va k).Nodup :=
  List.Nodup.filter _ (by decide)

theorem State.translateMapped_several (s : State) (kind : AccessKind) {va : Word} {k : Nat} {w x : BitVec 2}
    {l : List (BitVec 2)} (h : s.tlbMatches (tlbIndex s.cp0.entryHi.asid va k) va k = w :: x :: l) :
    s.translateMapped kind va k = .fault .tlbMultipleMatch := by
  simp [State.translateMapped, h]

theorem State.translate_reservedPageSize (s : State) (kind : AccessKind) {va : Word} {neg : Bool}
    (legal : legalAddress va s.user = true) (mapped : regionOf va ≠ 2)
    (size : pageBitsOf (pageSizeField s.statusView (regionOf va) neg) = none) :
    s.translate kind va neg = .refuse .reservedPageSize := by
  simp only [State.translate, legal, Bool.not_true, Bool.false_eq_true, if_false, if_neg mapped, size]

/-! ### What a matched entry gives -/

theorem useEntry_invalid {e : TlbLo} (kind : AccessKind) (va : Word) (k : Nat) (w : BitVec 2) (n : Nat)
    (h : e.v = false) : useEntry kind va k w e n = .raise (.tlbInvalid kind.isStore (kind.faultAddress va) k w) := by
  simp [useEntry, h]

theorem useEntry_clean {e : TlbLo} (va : Word) (k : Nat) (w : BitVec 2) (n : Nat) (valid : e.v = true)
    (clean : e.d = false) : useEntry .store va k w e n = .raise (.tlbModified va k w) := by
  simp [useEntry, valid, clean, AccessKind.isStore]

/-- An entry that the access may use gives the address, unless its coherence value is reserved. -/
theorem useEntry_usable {e : TlbLo} {kind : AccessKind} (va : Word) (k : Nat) (w : BitVec 2) (n : Nat)
    (valid : e.v = true) (dirty : kind = .store → e.d = true) : useEntry kind va k w e n =
      if reservedCoherence e.c then .refuse .reservedCoherence else .ok ⟨physicalAddress e.pfn va k n, e.c⟩ := by
  cases kind <;> simp [useEntry, valid, AccessKind.isStore, dirty]

theorem reservedCoherence_iff (c : BitVec 3) : reservedCoherence c = true ↔ c = 1 ∨ c = 6 ∨ c = 7 := by
  simp [reservedCoherence, or_assoc]

/-! ### The physical address of a page -/

/-- The bits of a physical address below the page size. -/
def pageMask (k : Nat) : PAddr := ~~~(BitVec.allOnes 40 <<< k)

theorem getLsbD_pageMask {k i : Nat} (hi : i < 40) : (pageMask k).getLsbD i = decide (i < k) := by
  have inside : i - k < 40 := by omega
  by_cases below : i < k <;>
    simp only [pageMask, BitVec.getLsbD_not, BitVec.getLsbD_shiftLeft, BitVec.getLsbD_allOnes, hi, inside, below,
      decide_true, decide_false, Bool.not_true, Bool.not_false, Bool.and_true, Bool.and_false]

theorem toNat_and_pageMask (x : PAddr) {k : Nat} (hk : k ≤ 40) : (x &&& pageMask k).toNat = x.toNat % 2 ^ k := by
  have h : x &&& pageMask k = (x.setWidth k).setWidth 40 := by
    refine BitVec.eq_of_getLsbD_eq fun i hi => ?_
    rw [BitVec.getLsbD_and, getLsbD_pageMask hi, BitVec.getLsbD_setWidth, BitVec.getLsbD_setWidth]
    simp [hi, Bool.and_comm]
  rw [h, BitVec.toNat_setWidth, BitVec.toNat_setWidth]
  exact Nat.mod_eq_of_lt ((Nat.mod_lt _ (Nat.two_pow_pos k)).trans_le (Nat.pow_le_pow_right (by decide) hk))

/-- The frame above the page offset; below it the virtual address, of which a frame with bits there leaves the low twelve. -/
theorem physicalAddress_eq (pfn : BitVec 28) (va : Word) (k n : Nat) : physicalAddress pfn va k n =
    ((pfn ++ 0#12 : PAddr) &&& ~~~pageMask k) |||
      if (pfn ++ 0#12 : PAddr) &&& pageMask k = 0 then va.setWidth 40 &&& pageMask k
      else (va.setWidth 40 &&& pageMask k &&& 0xfff) |||
        ((Config.freeWord .pfnLow n).setWidth 40 &&& pageMask k &&& ~~~0xfff) := rfl

/-- In its low twelve bits the physical address is the virtual one, whatever the frame holds. -/
theorem toNat_physicalAddress_low (pfn : BitVec 28) (va : Word) {k : Nat} (hk : 12 ≤ k) (n : Nat) :
    (physicalAddress pfn va k n).toNat % 4096 = va.toNat % 4096 := by
  have low : (physicalAddress pfn va k n).setWidth 12 = va.setWidth 12 := by
    refine BitVec.eq_of_getLsbD_eq fun i hi => ?_
    have twelve : ∀ j : Fin 12, (0xfff#40).getLsbD j = true := by decide
    have ones : (0xfff#40).getLsbD i = true := twelve ⟨i, hi⟩
    have inside : (pageMask k).getLsbD i = true := by
      rw [getLsbD_pageMask (by omega)]; exact decide_eq_true (by omega)
    rw [physicalAddress_eq]
    split <;>
      simp only [BitVec.getLsbD_setWidth, BitVec.getLsbD_or, BitVec.getLsbD_and, BitVec.getLsbD_not, BitVec.ofNat_eq_ofNat,
        inside, ones, hi, show i < 40 by omega, decide_true, Bool.not_true, Bool.and_false, Bool.false_or, Bool.true_and,
        Bool.and_true, Bool.or_false]
  have h := congrArg BitVec.toNat low
  rwa [BitVec.toNat_setWidth, BitVec.toNat_setWidth] at h

/-- Bits put in a number that has none in their place add to it. -/
theorem toNat_or_of_apart (x y m : PAddr) (h : x &&& m = 0#40) :
    ((x &&& ~~~m) ||| (y &&& m)).toNat = x.toNat + (y &&& m).toNat := by
  have outside : x &&& ~~~m = x := by
    refine BitVec.eq_of_getLsbD_eq fun i hi => ?_
    have hb := congrArg (·.getLsbD i) h
    simp only [BitVec.getLsbD_and, BitVec.getLsbD_zero] at hb
    rw [BitVec.getLsbD_and, BitVec.getLsbD_not]
    cases hx : x.getLsbD i <;> simp_all
  have apart : x &&& (y &&& m) = 0#40 := by rw [BitVec.and_comm y, ← BitVec.and_assoc, h, BitVec.zero_and]
  rw [outside, ← BitVec.add_eq_or_of_and_eq_zero _ _ apart, BitVec.toNat_add_of_and_eq_zero apart]

/-- A frame with no bits inside the page: the frame plus the page offset. -/
theorem toNat_physicalAddress {pfn : BitVec 28} (va : Word) {k : Nat} (hk : 12 ≤ k) (hk' : k ≤ 40) (n : Nat)
    (aligned : pfn.toNat % 2 ^ (k - 12) = 0) :
    (physicalAddress pfn va k n).toNat = pfn.toNat * 4096 + va.toNat % 2 ^ k := by
  have frame : (pfn ++ 0#12 : PAddr).toNat = pfn.toNat * 4096 := by
    rw [BitVec.toNat_append]
    simp [Nat.shiftLeft_eq]
  have pages : pfn.toNat * 4096 % 2 ^ k = 0 := by
    rw [show 2 ^ k = 2 ^ (k - 12) * 4096 by rw [← Nat.pow_add _ _ 12, Nat.sub_add_cancel hk], Nat.mul_mod_mul_right,
      aligned, Nat.zero_mul]
  have clear : (pfn ++ 0#12 : PAddr) &&& pageMask k = 0 :=
    BitVec.eq_of_toNat_eq (by rw [toNat_and_pageMask _ hk', frame, pages]; rfl)
  rw [physicalAddress_eq, if_pos clear, toNat_or_of_apart _ _ _ clear, frame, toNat_and_pageMask _ hk',
    BitVec.toNat_setWidth, Nat.mod_mod_of_dvd _ (Nat.pow_dvd_pow 2 hk')]

/-! ### The set that a refill names -/

theorem State.wiredClass_iff (s : State) (index : BitVec 7) :
    s.wiredClass index = true ↔ ∃ p ∈ s.wiredView.toList, p.v = true ∧ p.index = index := by
  simp only [State.wiredClass, List.any_eq_true, Bool.and_eq_true, beq_iff_eq]

/-- A refill names set 1 or 2, or where the class is not wired set 0. -/
theorem State.refillSet_cases (s : State) (index : BitVec 7) : s.refillSet index = 1 ∨ s.refillSet index = 2 ∨
    s.refillSet index = 0 ∧ ¬∃ p ∈ s.wiredView.toList, p.v = true ∧ p.index = index := by
  rw [← s.wiredClass_iff, State.refillSet]
  generalize Config.freeNat .refillSet s.draws = n
  split
  · have h : n % 2 = 0 ∨ n % 2 = 1 := by omega
    rcases h with h | h <;> simp [h]
  · next free =>
    have h : n % 3 = 0 ∨ n % 3 = 1 ∨ n % 3 = 2 := by omega
    rcases h with h | h | h <;> simp [h, free]

theorem AccessKind.toNat_faultAddress_fetch (va : Word) :
    (AccessKind.fetch.faultAddress va).toNat = va.toNat / 32 * 32 := by
  have line : va &&& ~~~31#64 = va >>> 5 <<< 5 := by
    rw [BitVec.shiftLeft_ushiftRight]
    rfl
  rw [AccessKind.faultAddress, line, BitVec.toNat_shiftLeft, BitVec.toNat_ushiftRight, Nat.shiftLeft_eq,
    Nat.shiftRight_eq_div_pow]
  exact Nat.mod_eq_of_lt (Nat.lt_of_le_of_lt (Nat.div_mul_le_self _ _) va.isLt)

theorem pageBitsOf_reserved : ∀ n : BitVec 4, 7 ≤ n.toNat → pageBitsOf n = none := by decide

/-- Settles O29: the matching sets decide, and where there is one its entry. -/
theorem mappedTranslation : Obligations.MappedTranslation := by
  refine ⟨fun s kind va neg k legal mapped size => ?_, fun s kind va neg legal mapped size => ?_, fun st => ?_, rfl, rfl, rfl,
    rfl, rfl, rfl, rfl, pageBitsOf_reserved, fun s closed => ?_, fun va => ⟨AccessKind.toNat_faultAddress_fetch va, rfl, rfl⟩⟩
  · obtain ⟨small, large⟩ := pageBitsOf_range size
    rw [s.translate_mapped kind legal mapped size]
    refine ⟨fun n => getLsbD_tlbIndex _ va k, s.tlbMatches_nodup _ va k, fun w => ?_, fun w one => ?_, fun none => ?_,
      fun w x l several => s.translateMapped_several kind several⟩
    · rw [s.mem_tlbMatches, tlbMatch_iff]
      rfl
    · rw [s.translateMapped_hit kind one]
      refine ⟨fun valid dirty good aligned => ?_, fun invalid => useEntry_invalid kind va k w s.draws invalid,
        fun valid store clean => ?_, fun valid dirty reserved => ?_⟩
      · rw [useEntry_usable va k w s.draws valid dirty, if_neg (by rw [reservedCoherence_iff]; tauto)]
        exact ⟨_, rfl, toNat_physicalAddress va small (by omega) s.draws aligned⟩
      · subst store
        exact useEntry_clean va k w s.draws valid clean
      · rw [useEntry_usable va k w s.draws valid dirty, if_pos ((reservedCoherence_iff _).mpr reserved)]
    · exact ⟨_, s.refillSet_cases _, s.translateMapped_miss kind none⟩
  · exact s.translate_reservedPageSize kind legal mapped size
  · refine ⟨rfl, rfl, fun r neg other => ?_⟩
    rw [pageSizeField, beq_false_of_ne other, Bool.false_and, if_neg Bool.false_ne_true]
  · rw [State.wiredView, closed, lateView_closed]

end Sys2Proof.Machine

/-! PROOFS. What loads and fetches get from the caches and from memory, and that a load after a store of the same bytes gets the
stored value (R123, R124, R140 to R142, R151 to R155). -/

namespace Sys2Proof.Machine

/-! ## Addresses that translate -/

/-- What a used entry can give. -/
theorem useEntry_eq_ok {kind : AccessKind} {va : Word} {k : Nat} {w : BitVec 2} {e : TlbLo} {n : Nat} {t : Translation}
    (h : useEntry kind va k w e n = .ok t) : e.v = true ∧ (kind = .store → e.d = true) ∧ reservedCoherence e.c = false ∧
      t = ⟨physicalAddress e.pfn va k n, e.c⟩ := by
  unfold useEntry at h
  split at h
  · cases h
  · next valid =>
    split at h
    · cases h
    · next dirty =>
      split at h
      · cases h
      · next good =>
        cases h
        refine ⟨by simpa using valid, ?_, by simpa using good, rfl⟩
        rintro rfl
        simpa [AccessKind.isStore] using dirty

theorem State.translateMapped_eq_ok {s : State} {kind : AccessKind} {va : Word} {k : Nat} {t : Translation}
    (h : s.translateMapped kind va k = .ok t) : ∃ w, s.tlbMatches (tlbIndex s.cp0.entryHi.asid va k) va k = [w] ∧
      useEntry kind va k w (s.tlbEntry (tlbIndex s.cp0.entryHi.asid va k) w).lo s.draws = .ok t := by
  unfold State.translateMapped at h
  dsimp only at h
  split at h
  · cases h
  · next w one => exact ⟨w, one, h⟩
  · cases h

/-- The two ways a translation can give an address. -/
theorem State.translate_eq_ok {s : State} {kind : AccessKind} {va : Word} {neg : Bool} {t : Translation}
    (h : s.translate kind va neg = .ok t) : legalAddress va s.user = true ∧
      (regionOf va = 2 ∧ t = ⟨va.setWidth 40, va.extractLsb' 59 3⟩ ∨
        regionOf va ≠ 2 ∧ ∃ k, pageBitsOf (pageSizeField s.statusView (regionOf va) neg) = some k ∧
          s.translateMapped kind va k = .ok t) := by
  unfold State.translate at h
  split at h
  · cases h
  · next legal =>
    refine ⟨by simpa using legal, ?_⟩
    split at h
    · next physical =>
      cases h
      exact .inl ⟨physical, rfl⟩
    · next mapped =>
      split at h
      · cases h
      · next k size => exact .inr ⟨mapped, k, size, h⟩

/-- The offset in a page of the smallest size is not translated. -/
theorem State.translate_low {s : State} {kind : AccessKind} {va : Word} {neg : Bool} {t : Translation}
    (h : s.translate kind va neg = .ok t) : t.pa.toNat % 4096 = va.toNat % 4096 := by
  obtain ⟨-, ⟨-, rfl⟩ | ⟨-, k, size, mapped⟩⟩ := State.translate_eq_ok h
  · rw [BitVec.toNat_setWidth]
    omega
  · obtain ⟨w, -, used⟩ := State.translateMapped_eq_ok mapped
    obtain ⟨-, -, -, rfl⟩ := useEntry_eq_ok used
    exact toNat_physicalAddress_low _ va (pageBitsOf_range size).1 _

/-- An address that translates for a store translates for a load, and to the same. -/
theorem State.translate_load_of_store {s : State} {va : Word} {neg : Bool} {t : Translation}
    (h : s.translate .store va neg = .ok t) : s.translate .load va neg = .ok t := by
  obtain ⟨legal, ⟨physical, rfl⟩ | ⟨mapped, k, size, hit⟩⟩ := State.translate_eq_ok h
  · exact s.translate_physical .load neg legal physical
  · obtain ⟨w, one, used⟩ := State.translateMapped_eq_ok hit
    obtain ⟨valid, -, good, rfl⟩ := useEntry_eq_ok used
    rw [s.translate_mapped .load legal mapped size, s.translateMapped_hit .load one,
      useEntry_usable (kind := .load) va k w s.draws valid nofun, if_neg (by simp [good])]

theorem State.addrCalc_load_of_store {s : State} {base : Reg} {off : Word} {a : Word × Bool}
    (h : s.addrCalc .store base off = .ok a) : s.addrCalc .load base off = .ok a := by
  by_cases r0neg : base = 0 ∧ off.msb = true
  · obtain ⟨r0, neg⟩ := r0neg
    cases user : s.user
    · rw [State.addrCalc_r0neg_kernel .store r0 neg user] at h
      rw [State.addrCalc_r0neg_kernel .load r0 neg user, h]
    · rw [State.addrCalc_r0neg_user .store r0 neg user] at h
      cases h
  · by_cases region : regionOf (s.reg base + off) = regionOf (s.reg base)
    · rw [s.addrCalc_sameRegion .store r0neg region] at h
      rw [s.addrCalc_sameRegion .load r0neg region, h]
    · rw [s.addrCalc_regionChange .store r0neg region] at h
      cases h

/-- Where a store is usable, so is the load of the same bytes. -/
theorem State.dataAddress_load_of_store {s : State} {n : Nat} {base : Reg} {off va : Word} {t : Translation}
    (h : s.dataAddress .store n base off = .ok (va, t)) : s.dataAddress .load n base off = .ok (va, t) := by
  obtain ⟨neg, formed, aligned, translated⟩ := State.dataAddress_ok h
  exact State.dataAddress_of_addrCalc (State.addrCalc_load_of_store formed) aligned
    (State.translate_load_of_store translated)

/-! ## The value of bytes -/

/-- Each byte of a value stands at its place, the first most significant. -/
theorem getLsbD_ofBytes (bs : List Byte) {i : Nat} (hi : i < 64) : (ofBytes bs).getLsbD i =
    (decide (i / 8 < bs.length) && (bs.getD (bs.length - 1 - i / 8) 0).getLsbD (i % 8)) := by
  induction bs using List.reverseRecOn generalizing i with
  | nil => simp [ofBytes]
  | append_singleton bs b ih =>
    have step : ofBytes (bs ++ [b]) = ofBytes bs <<< 8 ||| b.setWidth 64 := by
      simp [ofBytes]
    rw [step, BitVec.getLsbD_or, BitVec.getLsbD_shiftLeft, BitVec.getLsbD_setWidth, List.length_append, List.length_singleton,
      Nat.add_sub_cancel]
    by_cases last : i < 8
    · rw [Nat.div_eq_of_lt last, Nat.mod_eq_of_lt last]
      simp [hi, last]
    · rw [BitVec.getLsbD_of_ge b i (by omega), ih (by omega), show (i - 8) % 8 = i % 8 by omega,
        show bs.length - i / 8 = bs.length - 1 - (i - 8) / 8 by omega]
      by_cases more : (i - 8) / 8 < bs.length
      · rw [List.getD_append _ _ _ _ (by omega)]
        simp [hi, last, more, show i / 8 < bs.length + 1 by omega]
      · simp [more, show ¬i / 8 < bs.length + 1 by omega]

/-- The k-th byte of a value, the least significant being the 0-th. -/
theorem toNat_byte_ofBytes {bs : List Byte} (small : bs.length ≤ 8) {k : Nat} (hk : k < bs.length) :
    (ofBytes bs).toNat / 256 ^ k % 256 = (bs.getD (bs.length - 1 - k) 0).toNat := by
  have byte : (ofBytes bs).extractLsb' (8 * k) 8 = bs.getD (bs.length - 1 - k) 0 := by
    refine BitVec.eq_of_getLsbD_eq fun i hi => ?_
    rw [BitVec.getLsbD_extractLsb', getLsbD_ofBytes bs (by omega), show (8 * k + i) / 8 = k by omega,
      show (8 * k + i) % 8 = i by omega]
    simp [hi, hk]
  rw [← byte, toNat_extractLsb', Nat.pow_mul]
  rfl

theorem toNat_ofBytes_lt (bs : List Byte) : (ofBytes bs).toNat < 256 ^ bs.length := by
  have narrow : ofBytes bs = ((ofBytes bs).setWidth (8 * bs.length)).setWidth 64 := by
    refine BitVec.eq_of_getLsbD_eq fun i hi => ?_
    rw [BitVec.getLsbD_setWidth, BitVec.getLsbD_setWidth, getLsbD_ofBytes bs hi]
    by_cases inside : i < 8 * bs.length
    · simp [hi, inside]
    · simp [inside, show ¬i / 8 < bs.length by omega]
  rw [narrow, BitVec.toNat_setWidth, BitVec.toNat_setWidth, show 256 = 2 ^ 8 by rfl, ← Nat.pow_mul]
  exact Nat.lt_of_le_of_lt (Nat.mod_le _ _) (Nat.mod_lt _ (Nat.two_pow_pos _))

theorem toNat_loadedValue_lt (e : Bool) (bs : List Byte) : (loadedValue e bs).toNat < 256 ^ bs.length := by
  unfold loadedValue
  split
  · exact toNat_ofBytes_lt bs
  · have h := toNat_ofBytes_lt bs.reverse
    rwa [List.length_reverse] at h

/-- The first byte is most significant in big endian and least significant in little endian. -/
theorem toNat_byte_loadedValue (e : Bool) {bs : List Byte} (small : bs.length ≤ 8) {k : Nat} (hk : k < bs.length) :
    (loadedValue e bs).toNat / 256 ^ k % 256 = (bs.getD (if e then bs.length - 1 - k else k) 0).toNat := by
  unfold loadedValue
  split
  · exact toNat_byte_ofBytes small hk
  · have mirror : bs.reverse.getD (bs.length - 1 - k) 0 = bs.getD k 0 := by
      rw [List.getD_eq_getElem?_getD, List.getElem?_reverse (by omega), List.getD_eq_getElem?_getD,
        show bs.length - 1 - (bs.length - 1 - k) = k by omega]
    rw [toNat_byte_ofBytes (by rwa [List.length_reverse]) (by rwa [List.length_reverse]), List.length_reverse, mirror]

theorem bytesOf_getD (v : Word) {n k : Nat} (hk : k < n) : (bytesOf n v).getD k 0 = v.extractLsb' (8 * (n - 1 - k)) 8 := by
  induction n generalizing k with
  | zero => omega
  | succ n ih =>
    cases k with
    | zero => rfl
    | succ k =>
      rw [bytesOf, List.getD_cons_succ, ih (by omega), show n + 1 - 1 - (k + 1) = n - 1 - k by omega]

/-- The bytes of a datum, read in the byte order in which they were stored, have its value. -/
theorem loadedValue_storedBytes (e : Bool) (n : Nat) (v : Word) :
    loadedValue e (storedBytes e n v) = (v.setWidth (8 * n)).setWidth 64 := by
  have value : ofBytes (bytesOf n v) = (v.setWidth (8 * n)).setWidth 64 := by
    refine BitVec.eq_of_getLsbD_eq fun i hi => ?_
    rw [getLsbD_ofBytes _ hi, bytesOf_length, BitVec.getLsbD_setWidth, BitVec.getLsbD_setWidth]
    by_cases inside : i < 8 * n
    · rw [bytesOf_getD v (by omega), BitVec.getLsbD_extractLsb']
      rw [show 8 * (n - 1 - (n - 1 - i / 8)) + i % 8 = i by omega]
      simp [hi, inside, show i / 8 < n by omega, Nat.mod_lt]
    · simp [inside, show ¬i / 8 < n by omega]
  cases e
  · rw [storedBytes, loadedValue, if_neg Bool.false_ne_true, if_neg Bool.false_ne_true, List.reverse_reverse, value]
  · rw [storedBytes, loadedValue, if_pos rfl, if_pos rfl, value]

/-! ## What a load gets -/

@[simp] theorem DCacheLine.bytes_length (l : DCacheLine) (off n : Nat) : (l.bytes off n).length = n := by
  induction n generalizing off with
  | zero => rfl
  | succ n ih => simp [DCacheLine.bytes, ih]

theorem DCacheLine.bytes_getD (l : DCacheLine) (off : Nat) {n k : Nat} (hk : k < n) :
    (l.bytes off n).getD k 0 = l.data.toList.getD (off + k) 0 := by
  induction n generalizing off k with
  | zero => omega
  | succ n ih =>
    cases k with
    | zero => rfl
    | succ k => rw [DCacheLine.bytes, List.getD_cons_succ, ih _ (by omega), Nat.add_right_comm, Nat.add_assoc]

/-- A line holds the bytes of a physical address when it has its tag and every touched word is valid. -/
theorem DCacheLine.hit_iff (l : DCacheLine) {pa : PAddr} {n : Nat} (pos : 0 < n) (inside : pa.toNat % 32 + n ≤ 32) :
    l.hit pa n = true ↔ l.tag = pa.extractLsb' 12 28 ∧ ∀ w, Touches pa n w → l.valid.getLsbD w = true := by
  have masked : l.valid &&& wordMask (pa.toNat % 32) n = wordMask (pa.toNat % 32) n ↔
      ∀ w, Touches pa n w → l.valid.getLsbD w = true := by
    constructor
    · rintro eq w ⟨k, hk, rfl⟩
      have touched := (getLsbD_wordMask (w := (pa.toNat % 32 + k) / 4) pos inside (by omega)).mpr ⟨k, hk, rfl⟩
      rw [← eq, BitVec.getLsbD_and, Bool.and_eq_true] at touched
      exact touched.1
    · refine fun valid => BitVec.eq_of_getLsbD_eq fun w hw => ?_
      rw [BitVec.getLsbD_and]
      cases touched : (wordMask (pa.toNat % 32) n).getLsbD w
      · rw [Bool.and_false]
      · rw [valid w ((getLsbD_wordMask pos inside hw).mp touched), Bool.and_true]
  rw [DCacheLine.hit, Bool.and_eq_true, beq_iff_eq, beq_iff_eq, masked]
  rfl

theorem State.loadBytes_length (s : State) (va : Word) (t : Translation) (n : Nat) : (s.loadBytes va t n).1.length = n := by
  rw [State.loadBytes_eq]
  split
  · exact bytesOf_length n _
  · split
    · exact DCacheLine.bytes_length _ _ n
    · exact s.physBytes_length _ n

theorem State.toNat_valueOf_lt (s : State) (pa : PAddr) (bs : List Byte) : (s.valueOf pa bs).toNat < 256 ^ bs.length := by
  unfold State.valueOf
  split
  · have h := toNat_ofBytes_lt (bytesOf bs.length (Config.freeWord .mixedOrder s.draws))
    rwa [bytesOf_length] at h
  · exact toNat_loadedValue_lt _ bs

theorem State.valueOf_sameOrder {s : State} {pa : PAddr} {bs : List Byte}
    (same : ByteOrder.mixed s.byteOrder s.bigEndian pa.toNat bs.length = false) :
    s.valueOf pa bs = loadedValue s.bigEndian bs := by
  rw [State.valueOf, same, if_neg Bool.false_ne_true]

theorem State.loadInt_fst (s : State) (va : Word) (t : Translation) (n : Nat) :
    (s.loadInt va t n).1 = s.valueOf t.pa (s.loadBytes va t n).1 := rfl

/-- The value of a load of bytes that were not last stored in the other byte order. -/
theorem State.loadInt_sameOrder {s : State} (va : Word) {t : Translation} {n : Nat}
    (same : ByteOrder.mixed s.byteOrder s.bigEndian t.pa.toNat n = false) :
    (s.loadInt va t n).1 = loadedValue s.bigEndian (s.loadBytes va t n).1 := by
  rw [State.loadInt_fst, State.valueOf_sameOrder (by rwa [State.loadBytes_length])]

/-- A load from a half line that DCTW has written gets the bytes of the line where it holds them. -/
theorem State.loadBytes_hit {s : State} {va : Word} {t : Translation} {n : Nat} (ready : s.dcacheReady va = true)
    (hit : (s.dline (va.extractLsb' 5 9).toNat).hit t.pa n = true) :
    (s.loadBytes va t n).1 = (s.dline (va.extractLsb' 5 9).toNat).bytes (t.pa.toNat % 32) n := by
  rw [State.loadBytes_eq, if_neg (by simp [ready])]
  exact if_pos hit

/-- A load from a half line that DCTW has written gets the bytes of memory where the line does not hold them. -/
theorem State.loadBytes_miss {s : State} {va : Word} {t : Translation} {n : Nat} (ready : s.dcacheReady va = true)
    (miss : (s.dline (va.extractLsb' 5 9).toNat).hit t.pa n = false) :
    (s.loadBytes va t n).1 = s.physBytes t.pa.toNat n := by
  rw [State.loadBytes_eq, if_neg (by simp [ready])]
  exact if_neg (by rw [← dcacheIndex] at miss; simp [miss])

/-- Settles O19: the bytes that a load gets, and the places they have in its value. -/
theorem loadedValueIsMemory : Obligations.LoadedValueIsMemory := by
  intro s va t n pos small
  have len := s.loadBytes_length va t n
  refine ⟨?_, fun inside => ?_, fun ready same => ⟨fun hit k hk => ?_, fun miss backed k hk => ?_⟩⟩
  · have h := s.toNat_valueOf_lt t.pa (s.loadBytes va t n).1
    rwa [len] at h
  · rw [DCacheLine.hit_iff _ pos inside]
    exact and_congr_right' ⟨fun h k hk => h _ ⟨k, hk, rfl⟩, fun h _ ⟨k, hk, e⟩ => e ▸ h k hk⟩
  · rw [State.loadInt_sameOrder va same, toNat_byte_loadedValue _ (by omega) (by omega), len, State.loadBytes_hit ready hit,
      DCacheLine.bytes_getD _ _ (by split <;> omega)]
  · have place : (if s.bigEndian = true then n - 1 - k else k) < n := by split <;> omega
    rw [State.loadInt_sameOrder va same, toNat_byte_loadedValue _ (by omega) (by omega), len, State.loadBytes_miss ready miss,
      s.physBytes_getD _ _ _ place, State.physByte_backed (backed _ place)]

/-! ## Instruction fetch -/

theorem State.fetch_addressError {s : State} (h : s.pc.extractLsb' 0 2 ≠ 0 ∨ legalAddress s.pc s.user = false) :
    s.fetch = .raise (.addressErrorLoad s.pc) := by
  unfold State.fetch
  by_cases aligned : s.pc.extractLsb' 0 2 = 0
  · rw [if_neg (not_not.mpr aligned), if_pos (by simp [h.resolve_left (not_not.mpr aligned)])]
  · rw [if_pos aligned]

theorem lineWord_eq_getD (ws : Vector IWord 8) (pc : Word) :
    lineWord ws pc = ws.toList.getD (pc.extractLsb' 2 3).toNat 0 := by
  rw [List.getD_eq_getElem _ _ (by rw [Vector.length_toList]; exact (pc.extractLsb' 2 3).isLt), Vector.getElem_toList]
  rfl

/-- The word of a line of memory that an address selects is the one at its physical address. -/
theorem State.lineWord_memoryWords (s : State) {pc : Word} {pa : PAddr} (aligned : pc.extractLsb' 0 2 = 0)
    (low : pa.toNat % 4096 = pc.toNat % 4096) : lineWord (s.memoryWords pa) pc = s.memoryWord pa.toNat := by
  have word : pa.toNat / 32 * 32 + 4 * (pc.extractLsb' 2 3).toNat = pa.toNat := by
    have aligned' : pc.toNat / 2 ^ 0 % 2 ^ 2 = 0 := (extractLsb'_eq_iff pc 0 2 0).mp aligned
    rw [toNat_extractLsb']
    omega
  rw [lineWord, State.memoryWords, Vector.getElem_ofFn, word]

theorem State.memoryWord_backed {s : State} {a : Nat} (backed : ∀ k, k < 4 → s.backedAt (a + k) = true) :
    s.memoryWord a = wordOfBytes (Memory.read s.mem a) (Memory.read s.mem (a + 1)) (Memory.read s.mem (a + 2))
      (Memory.read s.mem (a + 3)) := by
  rw [State.memoryWord, State.physByte_backed (a := a) (backed 0 (by decide)), State.physByte_backed (backed 1 (by decide)),
    State.physByte_backed (backed 2 (by decide)), State.physByte_backed (backed 3 (by decide))]

section
variable {s : State} (aligned : s.pc.extractLsb' 0 2 = 0) (legal : legalAddress s.pc s.user = true)
include aligned legal

theorem State.fetch_hit (hit : s.icacheHit s.pc = true) :
    s.fetch = .ok (lineWord (s.iline (icacheIndex s.pc)).words s.pc, s) := by
  simp [State.fetch, aligned, legal, hit]

theorem State.fetch_miss (miss : s.icacheHit s.pc = false) : s.fetch = (s.translate .fetch s.pc false).bind fun t =>
    .ok (lineWord (s.memoryWords t.pa) s.pc, s.installLine s.pc t (s.memoryWords t.pa)) := by
  simp [State.fetch, aligned, legal, miss]

end

theorem State.icacheHit_valid {s : State} {pc : Word} (h : s.icacheHit pc = true) :
    (s.iline (icacheIndex pc)).valid = true := by
  simp only [State.icacheHit, Bool.and_eq_true] at h
  obtain ⟨⟨valid, -⟩, -⟩ := h
  exact valid

/-- Outside regions 10 and 11 the tag is the address and the IASID is compared. -/
theorem State.icacheHit_iff {s : State} {pc : Word} (not2 : regionOf pc ≠ 2) (not3 : regionOf pc ≠ 3)
    (closed : s.late.iasid = none) : s.icacheHit pc = true ↔ (s.iline (icacheIndex pc)).valid = true ∧
      (s.iline (icacheIndex pc)).tag = pc.extractLsb' 14 50 ∧ (s.iline (icacheIndex pc)).iasid = s.cp0.iasid := by
  have tag : icacheTag pc = pc.extractLsb' 14 50 := by rw [icacheTag, canonicalVa, if_neg not3]
  have iasid : s.iasidView = s.cp0.iasid := by rw [State.iasidView, closed, lateView_closed]
  rw [State.icacheHit, tag, iasid, beq_false_of_ne not2, beq_false_of_ne not3]
  simp only [Bool.or_self, Bool.false_and, Bool.or_false, Bool.and_eq_true, beq_iff_eq, and_assoc]

/-! ### What a miss leaves -/

theorem State.installLine_keeps (s : State) (pc : Word) (t : Translation) (ws : Vector IWord 8) :
    KeepsAllBut s (s.installLine pc t ws) [.icache, .dcache, .scache, .llbit] := by
  obtain ⟨d, c, b, e, -⟩ := s.fetchSynonym_cacheOnly pc t
  rw [State.installLine, e]
  intro p hp
  cases p <;> simp_all [Keeps, State.setIline, State.reg]

theorem State.installLine_link (s : State) (pc : Word) (t : Translation) (ws : Vector IWord 8) :
    KeepsLinkBut s (s.installLine pc t ws) := (s.fetchSynonym_cacheOnly pc t).link

/-- The streaming cache keeps nothing of an uncached fetch. -/
theorem State.installLine_uncached (s : State) (pc : Word) {t : Translation} (ws : Vector IWord 8)
    (uncached : t.cachable = false) : KeepsAllBut s (s.installLine pc t ws) [.icache] := by
  have same : s.fetchSynonym pc t = s := by simp [State.fetchSynonym, uncached]
  rw [State.installLine, same]
  intro p hp
  cases p <;> simp_all [Keeps, State.setIline, State.reg]

theorem State.installLine_program (s : State) (pc : Word) (t : Translation) (ws : Vector IWord 8) :
    (s.installLine pc t ws).pc = s.pc ∧ (s.installLine pc t ws).npc = s.npc ∧
      (s.installLine pc t ws).inSlot = s.inSlot := by
  obtain ⟨d, c, b, e, -⟩ := s.fetchSynonym_cacheOnly pc t
  rw [State.installLine, e]
  exact ⟨rfl, rfl, rfl⟩

/-! ### The step -/

/-- With no NMI and no interrupt taken, what the fetch raises the step takes. -/
theorem step_of_fetch_raise {s : State} {e : Exc} (nmi : s.boundary.nmiTaken = false)
    (interrupt : s.boundary.interrupted = false) (h : s.boundary.fetch = .raise e) :
    step s = .next (takeException e s.boundary) := by
  simp [step, stepFrom, nmi, interrupt, fetchAndRun, h]

/-- Settles O6: the fetch that hits, the one that misses, and the one that is refused its address. -/
theorem instructionFetch : Obligations.InstructionFetch := by
  refine ⟨fun s aligned legal => ⟨State.icacheHit_iff, fun hit => ⟨State.icacheHit_valid hit, ?_⟩, fun miss => ?_⟩,
    fun s nmi interrupt bad => ?_⟩
  · rw [State.fetch_hit aligned legal hit, lineWord_eq_getD]
    rfl
  · rw [State.fetch_miss aligned legal miss]
    refine ⟨fun t ht => ?_, fun e he => by rw [he]; rfl, fun r hr => by rw [hr]; rfl, fun f hf => by rw [hf]; rfl⟩
    obtain ⟨pc, npc, inSlot⟩ := s.installLine_program s.pc t (s.memoryWords t.pa)
    rw [ht]
    refine ⟨_, _, rfl, pc, npc, inSlot, fun backed => ?_, fun not3 not4 not5 => ?_, s.installLine_link _ _ _,
      s.installLine_keeps _ _ _⟩
    · rw [s.lineWord_memoryWords aligned (State.translate_low ht), State.memoryWord_backed backed]
    · exact s.installLine_uncached _ _ (by
        rw [Translation.cachable, beq_false_of_ne not3, beq_false_of_ne not4, beq_false_of_ne not5]; rfl)
  · refine ⟨_, step_of_fetch_raise nmi interrupt (State.fetch_addressError bad), rfl, ?_, takeException_excCode _ _⟩
    rw [takeException_cp0]
    rfl

/-! ## A load after a store -/

/-- The state after a store of bytes, as far as a load of them depends on it: registers, address translation and the physical map
are as they were, and memory and its byte order are those of the store. -/
structure Stored (s u : State) (pa : PAddr) (bs : List Byte) : Prop where
  gpr : u.gpr = s.gpr
  cp0 : u.cp0 = s.cp0
  tlb : u.tlb = s.tlb
  late : u.late = s.late
  draws : u.draws = s.draws
  physMap : u.physMap = s.physMap
  dcacheWritten : u.dcacheWritten = s.dcacheWritten
  mem : u.mem = Memory.writeList s.ramAt s.mem pa.toNat bs
  byteOrder : u.byteOrder = ByteOrder.mark s.ramAt s.byteOrder s.bigEndian pa.toNat bs.length

theorem CacheAndViolation.stored {s u : State} {pa : PAddr} {bs : List Byte}
    (h : CacheAndViolation (s.writeMemory pa bs) u) : Stored s u.advance pa bs := by
  obtain ⟨w, v, ⟨d, c, b, rfl, -⟩, rfl⟩ := h
  exact ⟨rfl, rfl, rfl, rfl, rfl, rfl, rfl, rfl, rfl⟩

namespace Stored
variable {s u : State} {pa : PAddr} {bs : List Byte} (h : Stored s u pa bs)
include h

theorem reg (r : Reg) : u.reg r = s.reg r := State.reg_congr h.gpr r

theorem statusView : u.statusView = s.statusView := by
  unfold State.statusView
  rw [h.late, h.cp0, h.draws]

theorem user : u.user = s.user := by rw [State.user, State.user, h.statusView]

theorem bigEndian : u.bigEndian = s.bigEndian := by
  unfold State.bigEndian State.configView
  rw [h.late, h.cp0, h.draws, h.user, h.statusView]

theorem uxOn (ux : UxOn s) : UxOn u := by
  rw [UxOn, h.user, h.statusView]
  exact ux

theorem ready {va : Word} (ready : s.dcacheReady va = true) : u.dcacheReady va = true := by
  rw [State.dcacheReady, h.dcacheWritten]
  exact ready

theorem addrCalc (kind : AccessKind) (base : Reg) (off : Word) :
    u.addrCalc kind base off = s.addrCalc kind base off := by
  unfold State.addrCalc
  rw [h.reg, h.user]

theorem translate (kind : AccessKind) (va : Word) (neg : Bool) : u.translate kind va neg = s.translate kind va neg := by
  have entries : u.tlbEntry = s.tlbEntry := by
    unfold State.tlbEntry
    rw [h.tlb]
  have refills : u.refillSet = s.refillSet := by
    unfold State.refillSet State.wiredClass State.wiredView
    rw [h.late, h.cp0, h.draws]
  unfold State.translate State.translateMapped State.tlbMatches
  rw [h.user, h.statusView, h.cp0, h.draws, entries, refills]

theorem dataAddress (kind : AccessKind) (n : Nat) (base : Reg) (off : Word) :
    u.dataAddress kind n base off = s.dataAddress kind n base off := by
  unfold State.dataAddress
  rw [h.addrCalc]
  simp only [h.translate]

end Stored

/-- Lists of bytes that agree at every place are the same. -/
theorem list_eq_of_getD {l m : List Byte} (len : l.length = m.length)
    (h : ∀ k, k < m.length → l.getD k 0 = m.getD k 0) : l = m := by
  refine List.ext_getElem len fun k hl hm => ?_
  have := h k hm
  rwa [List.getD_eq_getElem _ _ hl, List.getD_eq_getElem _ _ hm] at this

section
variable {s u : State} {pa : PAddr} {bs : List Byte} (h : Stored s u pa bs)
  (ram : ∀ k, k < bs.length → s.ramAt (pa.toNat + k) = true)
include h ram

/-- Where RAM stands memory holds the stored bytes. -/
theorem Stored.read {k : Nat} (hk : k < bs.length) : Memory.read u.mem (pa.toNat + k) = bs.getD k 0 := by
  rw [h.mem, Memory.read_writeList, if_pos ⟨by omega, by omega, ram k hk⟩, Nat.add_sub_cancel_left]

theorem Stored.backed {k : Nat} (hk : k < bs.length) : u.backedAt (pa.toNat + k) = true := by
  rw [State.backedAt, h.physMap]
  exact State.backedAt_of_ramAt (ram k hk)

theorem Stored.physBytes : u.physBytes pa.toNat bs.length = bs := by
  refine list_eq_of_getD (u.physBytes_length _ _) fun k hk => ?_
  rw [u.physBytes_getD _ _ _ hk, State.physByte_backed (h.backed ram hk), h.read ram hk]

theorem Stored.sameOrder : ByteOrder.mixed u.byteOrder u.bigEndian pa.toNat bs.length = false := by
  rw [ByteOrder.mixed_eq_false]
  intro b low high
  obtain ⟨k, rfl⟩ : ∃ k, b = pa.toNat + k := ⟨b - pa.toNat, by omega⟩
  rw [h.byteOrder, h.bigEndian, ByteOrder.get_mark, if_pos ⟨low, high, ram k (by omega)⟩]
  simp

/-- A load of the stored bytes gets their value, if those that the data cache holds are these. -/
theorem Stored.loadInt {va : Word} {t : Translation} (ready : s.dcacheReady va = true) (same : t.pa = pa)
    (held : (u.dline (va.extractLsb' 5 9).toNat).hit pa bs.length = true →
      (u.dline (va.extractLsb' 5 9).toNat).bytes (pa.toNat % 32) bs.length = bs) :
    (u.loadInt va t bs.length).1 = loadedValue s.bigEndian bs := by
  subst same
  rw [State.loadInt_sameOrder va (h.sameOrder ram), h.bigEndian]
  cases hit : (u.dline (va.extractLsb' 5 9).toNat).hit t.pa bs.length
  · rw [State.loadBytes_miss (h.ready ready) hit, h.physBytes ram]
  · rw [State.loadBytes_hit (h.ready ready) hit, held hit]

end

/-! ### After an integer store the data cache holds the stored bytes, or not all of them -/

/-- Bytes put in a line. -/
theorem PutAt.bytes {old : Vector Byte 32} {l : DCacheLine} {off : Nat} {bs : List Byte} (inside : off + bs.length ≤ 32)
    (h : PutAt old l.data off bs) : l.bytes off bs.length = bs := by
  refine list_eq_of_getD (l.bytes_length _ _) fun k hk => ?_
  rw [l.bytes_getD _ hk, h _ (by omega), if_pos ⟨by omega, by omega⟩, Nat.add_sub_cancel_left]

/-- A line filled from memory. -/
theorem Filled.bytes {u : State} {pa : PAddr} {l : DCacheLine} {bs : List Byte} (inside : pa.toNat % 32 + bs.length ≤ 32)
    (backed : ∀ k, k < bs.length → u.backedAt (pa.toNat + k) = true)
    (read : ∀ k, k < bs.length → Memory.read u.mem (pa.toNat + k) = bs.getD k 0) (h : Filled u pa l) :
    l.bytes (pa.toNat % 32) bs.length = bs := by
  obtain ⟨-, data⟩ := h
  refine list_eq_of_getD (l.bytes_length _ _) fun k hk => ?_
  have address : pa.toNat / 32 * 32 + (pa.toNat % 32 + k) = pa.toNat + k := by omega
  rw [l.bytes_getD _ hk, data _ (by omega) (by rw [address]; exact backed k hk), address, read k hk]

/-- A line used as a buffer does not hold the buffered bytes. -/
theorem Buffered.no_hit {old l : DCacheLine} {pa : PAddr} {bs : List Byte} (pos : 0 < bs.length)
    (inside : pa.toNat % 32 + bs.length ≤ 32) (h : Buffered old pa bs l) : l.hit pa bs.length = false := by
  obtain ⟨-, -, -, valid⟩ := h
  refine Bool.eq_false_iff.mpr fun hit => ?_
  have first : Touches pa bs.length (pa.toNat % 32 / 4) := ⟨0, pos, rfl⟩
  have kept := ((l.hit_iff pos inside).mp hit).2 _ first
  exact ((valid inside _ (by omega)).mp kept).2.2 first

theorem StoredCaches.held {s u : State} {va : Word} {t : Translation} {bs : List Byte} (pos : 0 < bs.length)
    (inside : t.pa.toNat % 32 + bs.length ≤ 32) (ready : s.dcacheReady va = true)
    (backed : ∀ k, k < bs.length → u.backedAt (t.pa.toNat + k) = true)
    (read : ∀ k, k < bs.length → Memory.read u.mem (t.pa.toNat + k) = bs.getD k 0) (h : StoredCaches s va t bs u)
    (hit : (u.dline (va.extractLsb' 5 9).toNat).hit t.pa bs.length = true) :
    (u.dline (va.extractLsb' 5 9).toNat).bytes (t.pa.toNat % 32) bs.length = bs := by
  obtain ⟨-, -, l, -, outcome, -⟩ := h
  obtain ⟨updated, missed⟩ := outcome ready
  cases before : l.hit t.pa bs.length
  · obtain ⟨filled, buffered⟩ := missed before
    cases cachable : t.cachable
    · exact absurd hit (by rw [(buffered cachable).no_hit pos inside]; decide)
    · exact (filled cachable).bytes inside backed read
  · exact (updated before).2.bytes inside

/-! ### After a floating-point store the data cache does not hold the stored bytes -/

/-- The line that a virtual address selects: its bits 13 and 12, and below them bits of the page offset, which the physical address
has too. -/
theorem toNat_line {va : Word} {pa : PAddr} (low : pa.toNat % 4096 = va.toNat % 4096) :
    (va.extractLsb' 5 9).toNat = (va.extractLsb' 12 2).toNat * 128 + pa.toNat / 32 % 128 := by
  rw [toNat_extractLsb', toNat_extractLsb']
  omega

/-- A line that lost the valid bit of a touched word holds none of the bytes. -/
theorem DCacheLine.hit_eq_false {l : DCacheLine} {pa : PAddr} {n : Nat} (pos : 0 < n) (inside : pa.toNat % 32 + n ≤ 32)
    (h : l.tag = pa.extractLsb' 12 28 → ∀ w, Touches pa n w → l.valid.getLsbD w = false) : l.hit pa n = false := by
  refine Bool.eq_false_iff.mpr fun hit => ?_
  obtain ⟨tag, valid⟩ := (l.hit_iff pos inside).mp hit
  have first : Touches pa n ((pa.toNat % 32 + 0) / 4) := ⟨0, pos, rfl⟩
  exact absurd (valid _ first) (by rw [h tag _ first]; decide)

/-- A floating-point store through one virtual address reaches the line that another one selects: the line is the same, or with
SMM = 1 it is that of the synonym under which the streaming cache holds the sector. -/
def StoreReaches (s : State) (va : Word) (t : Translation) (va' : Word) : Prop :=
  va'.extractLsb' 12 2 = va.extractLsb' 12 2 ∨ t.cachable = true ∧ s.configView.smm = true ∧
    ∃ vs, s.synonym t.pa = some vs ∧ vs.extractLsb' 0 2 = va'.extractLsb' 12 2

/-- The line that the store selects, and with SMM = 1 that of the synonym under which the streaming cache holds the sector, hold no
valid copy of the stored words (R151, R154, R160). -/
theorem FloatStoredCaches.no_hit {s u : State} {va va' : Word} {t : Translation} {n : Nat} (pos : 0 < n)
    (inside : t.pa.toNat % 32 + n ≤ 32) (low : t.pa.toNat % 4096 = va.toNat % 4096)
    (low' : t.pa.toNat % 4096 = va'.toNat % 4096) (h : FloatStoredCaches s va t n u)
    (reached : StoreReaches s va t va') :
    (u.dline (va'.extractLsb' 5 9).toNat).hit t.pa n = false := by
  obtain ⟨-, -, fewer, -, own, copies⟩ := h
  refine DCacheLine.hit_eq_false pos inside fun tag w touched => ?_
  have held : (s.dline (va'.extractLsb' 5 9).toNat).tag = t.pa.extractLsb' 12 28 := by
    obtain ⟨v, e, -⟩ := fewer (va'.extractLsb' 5 9).toNat
    rwa [e] at tag
  have sameLine : va'.extractLsb' 12 2 = va.extractLsb' 12 2 → (va'.extractLsb' 5 9).toNat = (va.extractLsb' 5 9).toNat :=
    fun e => by rw [toNat_line low, toNat_line low', e]
  have onSameLine (e : va'.extractLsb' 12 2 = va.extractLsb' 12 2) :
      (u.dline (va'.extractLsb' 5 9).toNat).valid.getLsbD w = false := by
    rw [sameLine e] at held ⊢
    exact (own inside held).1 w touched
  obtain alike | ⟨cachable, smm, vs, synonym, alike⟩ := reached
  · exact onSameLine alike
  · by_cases own' : vs = va.extractLsb' 12 4
    · refine onSameLine ?_
      rw [← alike, own']
      exact BitVec.eq_of_getLsbD_eq fun i hi => by simp [hi, show i < 4 by omega]
    · have bits : (vs.extractLsb' 0 2).toNat = vs.toNat % 4 := by
        rw [BitVec.extractLsb'_toNat]
        rfl
      have line := toNat_line low'
      rw [← alike, bits] at line
      exact copies inside smm _ ⟨⟨cachable, vs, synonym, own', by omega⟩, held⟩ (by omega) w touched

/-! ### The instructions -/

theorem exec_sd {s : State} (ux : UxOn s) (base rt : Reg) (off : BitVec 16) :
    exec (.sd base rt off) s = (s.store 8 rt base (sext16 off)).finish s := by
  have e : exec (.sd base rt off) s = execSd base rt off s := rfl
  rw [e, execSd, needUx_ok ux, Access.bind_ok]

theorem exec_ld {s : State} (ux : UxOn s) (base rt : Reg) (off : BitVec 16) :
    exec (.ld base rt off) s = (s.load 8 id rt base (sext16 off)).finish s := by
  have e : exec (.ld base rt off) s = execLd base rt off s := rfl
  rw [e, execLd, needUx_ok ux, Access.bind_ok]

theorem exec_lw (s : State) (base rt : Reg) (off : BitVec 16) :
    exec (.lw base rt off) s = (s.load 4 (signBytes 4) rt base (sext16 off)).finish s := rfl

theorem exec_sdc1 {s : State} (cop1 : s.usable1 = true) {r : Reg} (legal : LegalPairs s [r]) (base : Reg) (off : BitVec 16) :
    exec (.sdc1 base r off) s =
      ((s.dataAddress .store 8 base (sext16 off)).bind fun a => .ok (s.storeFloat a.1 a.2 8 (s.fprFile r)).advance).finish s := by
  have e : exec (.sdc1 base r off) s = execSdc1 base r off s := rfl
  have pair : needFprPair s r = .ok () := by
    rw [needFprPair, if_neg]
    rcases legal with fr | even
    · simp [fr]
    · simp only [even r (List.mem_singleton.mpr rfl), Bool.and_false, Bool.false_eq_true, not_false_eq_true]
  rw [e, execSdc1, needCop1_ok cop1, Access.bind_ok, State.storeFpr, pair, Access.bind_ok]

theorem exec_swc1 {s : State} (cop1 : s.usable1 = true) (base r : Reg) (off : BitVec 16) :
    exec (.swc1 base r off) s = (s.storeFprWord r base (sext16 off)).finish s := by
  have e : exec (.swc1 base r off) s = execSwc1 base r off s := rfl
  rw [e, execSwc1, needCop1_ok cop1, Access.bind_ok]

/-- A load after a store that left the registers alone. -/
theorem ThenGets.of_loadsReg {i : Instr} {s u : State} {rd : Reg} {v : Word} (regs : ∀ r, u.reg r = s.reg r)
    (h : LoadsReg i u rd v) : ThenGets i s u rd v := by
  obtain ⟨w, run, -, value, others, -⟩ := h
  exact ⟨w, run, value, fun q hq => (others q hq).trans (regs q)⟩


/-- An aligned datum of 4 or 8 bytes lies in one line. -/
theorem State.dataAddress_inside {s : State} {kind : AccessKind} {n : Nat} {base : Reg} {off va : Word} {t : Translation}
    (size : n = 4 ∨ n = 8) (h : s.dataAddress kind n base off = .ok (va, t)) : t.pa.toNat % 32 + n ≤ 32 := by
  obtain ⟨neg, -, aligned, translated⟩ := State.dataAddress_ok h
  have low := State.translate_low translated
  rcases size with rfl | rfl <;> omega

theorem State.dataAddress_low {s : State} {kind : AccessKind} {n : Nat} {base : Reg} {off va : Word} {t : Translation}
    (h : s.dataAddress kind n base off = .ok (va, t)) : t.pa.toNat % 4096 = va.toNat % 4096 := by
  obtain ⟨neg, -, -, translated⟩ := State.dataAddress_ok h
  exact State.translate_low translated

/-- A load of a stored datum gets the low bytes of its value. -/
theorem Stored.loadInt_datum {s u : State} {n : Nat} {v va : Word} {pa : PAddr} {t : Translation}
    (h : Stored s u pa (storedBytes s.bigEndian n v)) (ram : ∀ k, k < n → s.ramAt (pa.toNat + k) = true)
    (ready : s.dcacheReady va = true) (same : t.pa = pa)
    (held : (u.dline (va.extractLsb' 5 9).toNat).hit pa n = true →
      (u.dline (va.extractLsb' 5 9).toNat).bytes (pa.toNat % 32) n = storedBytes s.bigEndian n v) :
    (u.loadInt va t n).1 = (v.setWidth (8 * n)).setWidth 64 := by
  have value := h.loadInt (va := va) (t := t) (by rwa [storedBytes_length]) ready same (by rwa [storedBytes_length])
  rwa [storedBytes_length, loadedValue_storedBytes] at value

section
variable {s : State} {n : Nat} {base : Reg} {off va v : Word} {t : Translation} (size : n = 4 ∨ n = 8)
  (address : s.dataAddress .store n base off = .ok (va, t)) (ram : ∀ k, k < n → s.ramAt (t.pa.toNat + k) = true)
include size address ram

/-- A load of the address of an integer store gets the stored value. -/
theorem State.loadInt_after_storeInt (ready : s.dcacheReady va = true) :
    ((s.storeInt va t n v).advance.loadInt va t n).1 = (v.setWidth (8 * n)).setWidth 64 := by
  have pos : 0 < n := by omega
  have stored := (s.storeInt_cacheOnly va t n v).violation.stored
  have caches := (s.storeBytes_caches va t (bs := storedBytes s.bigEndian n v) (by rwa [storedBytes_length])).congr
    (u := (s.storeInt va t n v).advance) rfl rfl rfl rfl
  refine stored.loadInt_datum ram ready rfl fun hit => ?_
  have held := caches.held (by rwa [storedBytes_length])
    (by rw [storedBytes_length]; exact State.dataAddress_inside size address) ready
    (fun k hk => stored.backed (by rwa [storedBytes_length]) hk) (fun k hk => stored.read (by rwa [storedBytes_length]) hk)
  rw [storedBytes_length] at held
  exact held hit

/-- A load of the bytes of a floating-point store gets the stored value, through every virtual address whose line the store
reaches. -/
theorem State.loadInt_after_storeFloat {base' : Reg} {off' va' : Word} {t' : Translation}
    (address' : (s.storeFloat va t n v).advance.dataAddress .load n base' off' = .ok (va', t')) (same : t'.pa = t.pa)
    (ready : s.dcacheReady va' = true) (reached : StoreReaches s va t va') :
    ((s.storeFloat va t n v).advance.loadInt va' t' n).1 = (v.setWidth (8 * n)).setWidth 64 := by
  have pos : 0 < n := by omega
  have caches := (s.floatStoreBytes_caches va t (bs := storedBytes s.bigEndian n v) (by rwa [storedBytes_length])).congr
    (u := (s.storeFloat va t n v).advance) rfl rfl
  rw [storedBytes_length] at caches
  have miss := caches.no_hit pos (State.dataAddress_inside size address) (State.dataAddress_low address)
    (same ▸ State.dataAddress_low address') reached
  refine (s.storeFloat_effect va t n v).stored.loadInt_datum ram ready same fun hit => ?_
  exact absurd hit (by rw [miss]; decide)

end

/-- A floating-point store and an integer load of the same bytes: through the same address, and through every other one whose line
the store reaches. -/
theorem ThenGets.after_storeFloat {s : State} {n : Nat} {base rd : Reg} {off : BitVec 16} {va v : Word} {t : Translation}
    {load : Reg → BitVec 16 → Instr} {extend : Word → Word} (size : n = 4 ∨ n = 8)
    (address : s.dataAddress .store n base (sext16 off) = .ok (va, t))
    (ram : ∀ k, k < n → s.ramAt (t.pa.toNat + k) = true)
    (run : ∀ base' off', exec (load base' off') (s.storeFloat va t n v).advance =
      ((s.storeFloat va t n v).advance.load n extend rd base' (sext16 off')).finish (s.storeFloat va t n v).advance) :
    (s.dcacheReady va = true →
      ThenGets (load base off) s (s.storeFloat va t n v).advance rd (extend ((v.setWidth (8 * n)).setWidth 64))) ∧
    ∀ (base' : Reg) (off' : BitVec 16) (va' : Word) (t' : Translation),
      (s.storeFloat va t n v).advance.dataAddress .load n base' (sext16 off') = .ok (va', t') → t'.pa = t.pa →
      s.dcacheReady va' = true → StoreReaches s va t va' →
      ThenGets (load base' off') s (s.storeFloat va t n v).advance rd (extend ((v.setWidth (8 * n)).setWidth 64)) := by
  have stored := (s.storeFloat_effect va t n v).stored
  have gets (base' : Reg) (off' : BitVec 16) (va' : Word) (t' : Translation)
      (address' : (s.storeFloat va t n v).advance.dataAddress .load n base' (sext16 off') = .ok (va', t'))
      (same : t'.pa = t.pa) (ready : s.dcacheReady va' = true) (reached : StoreReaches s va t va') :
      ThenGets (load base' off') s (s.storeFloat va t n v).advance rd (extend ((v.setWidth (8 * n)).setWidth 64)) := by
    have loads := LoadsReg.of_load (run base' off') address'
    rw [State.loadInt_after_storeFloat size address ram address' same ready reached] at loads
    exact .of_loadsReg stored.reg loads
  have address' := (stored.dataAddress .load n base (sext16 off)).trans (State.dataAddress_load_of_store address)
  exact ⟨fun ready => gets base off va t address' rfl ready (.inl rfl), gets⟩

/-- Settles O21: each store completes, and the load gets what the bytes of the line or of memory then are. -/
theorem storeThenLoadDoubleword : Obligations.StoreThenLoadDoubleword := by
  intro s base r rt rd off va t
  have double : ∀ v : Word, id ((v.setWidth (8 * 8)).setWidth 64) = v := fun v => by simp
  have single : ∀ w : BitVec 32, signBytes 4 (((w.setWidth 64).setWidth (8 * 4)).setWidth 64) = w.signExtend 64 :=
    fun w => by simp [signBytes]
  refine ⟨fun ux address ready ram => ?_, fun ux cop1 legal address ram => ?_, fun cop1 address ram => ?_⟩
  · have stored := (s.storeInt_cacheOnly va t 8 (s.reg rt)).violation.stored
    have address' := (stored.dataAddress .load 8 base (sext16 off)).trans (State.dataAddress_load_of_store address)
    have loads := LoadsReg.of_load (exec_ld (stored.uxOn ux) base rd off) address'
    rw [State.loadInt_after_storeInt (.inr rfl) address ram ready, double] at loads
    refine ⟨(s.storeInt va t 8 (s.reg rt)).advance, ?_, .of_loadsReg stored.reg loads⟩
    rw [exec_sd ux, State.store, address]
    rfl
  · have stored := (s.storeFloat_effect va t 8 (s.fprFile r)).stored
    have gets := ThenGets.after_storeFloat (rd := rd) (.inr rfl) address ram (exec_ld (stored.uxOn ux) · rd ·)
    rw [double] at gets
    refine ⟨_, ?_, gets⟩
    rw [exec_sdc1 cop1 legal, address]
    rfl
  · have gets := ThenGets.after_storeFloat (v := (s.fprWord r).setWidth 64) (.inl rfl) address ram (exec_lw _ · rd ·)
    rw [single] at gets
    refine ⟨_, ?_, gets⟩
    rw [exec_swc1 cop1, State.storeFprWord, address]
    rfl

end Sys2Proof.Machine

/-! PROOFS. Decoding and encoding are inverse to each other (R171 to R182, R189), and what a word that is no instruction raises
(R183, R184, R571, R572). -/

namespace Sys2Proof.Machine
open Sys2Proof

/-! ## Operands that fill several fields, taken apart -/

section
variable (rs rt rd sa : BitVec 5) (fn : BitVec 6)

/-! Immediates and offsets of 16 bits are `rd ++ sa ++ fn`, trap codes `rd ++ sa`, codes of SYSCALL and BREAK
`rs ++ rt ++ rd ++ sa`, and jump targets all five (R171). -/

@[simp] theorem imm_fn : (rd ++ sa ++ fn).extractLsb' 0 6 = fn :=
  BitVec.extractLsb'_append_eq_right

@[simp] theorem imm_sa : (rd ++ sa ++ fn).extractLsb' 6 5 = sa :=
  (BitVec.extractLsb'_append_eq_of_le (by decide)).trans BitVec.extractLsb'_append_eq_right

@[simp] theorem imm_rd : (rd ++ sa ++ fn).extractLsb' 11 5 = rd :=
  (BitVec.extractLsb'_append_eq_of_le (by decide)).trans BitVec.extractLsb'_append_eq_left

@[simp] theorem target_fn : (rs ++ rt ++ rd ++ sa ++ fn).extractLsb' 0 6 = fn :=
  BitVec.extractLsb'_append_eq_right

@[simp] theorem code10_sa : (rd ++ sa).extractLsb' 0 5 = sa :=
  BitVec.extractLsb'_append_eq_right

@[simp] theorem code10_rd : (rd ++ sa).extractLsb' 5 5 = rd :=
  BitVec.extractLsb'_append_eq_left

@[simp] theorem code20_sa : (rs ++ rt ++ rd ++ sa).extractLsb' 0 5 = sa :=
  BitVec.extractLsb'_append_eq_right

@[simp] theorem code20_rd : (rs ++ rt ++ rd ++ sa).extractLsb' 5 5 = rd :=
  (BitVec.extractLsb'_append_eq_of_le (by decide)).trans BitVec.extractLsb'_append_eq_right

@[simp] theorem code20_rt : (rs ++ rt ++ rd ++ sa).extractLsb' 10 5 = rt :=
  (BitVec.extractLsb'_append_eq_of_le (by decide)).trans <|
    (BitVec.extractLsb'_append_eq_of_le (by decide)).trans BitVec.extractLsb'_append_eq_right

@[simp] theorem code20_rs : (rs ++ rt ++ rd ++ sa).extractLsb' 15 5 = rs :=
  (BitVec.extractLsb'_append_eq_of_le (by decide)).trans <|
    (BitVec.extractLsb'_append_eq_of_le (by decide)).trans BitVec.extractLsb'_append_eq_left

/-- Above the funct field, a jump target is laid out as a 20-bit code. -/
theorem target_above_fn (start : Nat) :
    (rs ++ rt ++ rd ++ sa ++ fn).extractLsb' (start + 6) 5 = (rs ++ rt ++ rd ++ sa).extractLsb' start 5 :=
  BitVec.extractLsb'_append_eq_of_le (Nat.le_add_left 6 start)

@[simp] theorem target_sa : (rs ++ rt ++ rd ++ sa ++ fn).extractLsb' 6 5 = sa :=
  (target_above_fn rs rt rd sa fn 0).trans (code20_sa rs rt rd sa)

@[simp] theorem target_rd : (rs ++ rt ++ rd ++ sa ++ fn).extractLsb' 11 5 = rd :=
  (target_above_fn rs rt rd sa fn 5).trans (code20_rd rs rt rd sa)

@[simp] theorem target_rt : (rs ++ rt ++ rd ++ sa ++ fn).extractLsb' 16 5 = rt :=
  (target_above_fn rs rt rd sa fn 10).trans (code20_rt rs rt rd sa)

@[simp] theorem target_rs : (rs ++ rt ++ rd ++ sa ++ fn).extractLsb' 21 5 = rs :=
  (target_above_fn rs rt rd sa fn 15).trans (code20_rs rs rt rd sa)

end

/-- A field is its condition code above two given bits exactly when these are its two low bits. -/
@[simp] theorem cc_append_eq_iff (x : BitVec 5) (b : BitVec 2) : x.extractLsb' 2 3 ++ b = x ↔ b = x.extractLsb' 0 2 := by
  constructor
  · intro h
    rw [← h, low_of_field]
  · rintro rfl
    exact field_pieces x

/-! ## Reading what was written -/

@[simp] theorem wellFormed_iff (i : Instr) : i.wellFormed = true ↔ i ≠ .sll 0 0 1 := bne_iff_ne

/-- A row whose last operand is put together from the pieces it was written as. -/
theorem reads_pieces {n : Nat} {x y : BitVec n} {row : BitVec n → Instr} {r : Except DecodeError Instr} (pieces : x = y)
    (read : r = .ok (row x)) : r = .ok (row y) :=
  pieces ▸ read

/-- A row whose guard asks for the low bits of a field and whose last operand is the condition code above them. -/
theorem reads_cc {row : CC → Instr} {r : Except DecodeError Instr} (cc : CC) (b : BitVec 2)
    (read : r = if (cc ++ b).extractLsb' 0 2 = b then .ok (row ((cc ++ b).extractLsb' 2 3))
      else .error .reservedFieldNotZero) : r = .ok (row cc) := by
  rw [read, if_pos (low_of_field cc b), cc_of_field]

/-- Every row of the opcode table is read back from the pieces written for it; the row of SLL only where SSNOP does not come
before it (R189). -/
theorem decodeFields_encodeFields (i : Instr) (wf : i.wellFormed = true) : decodeFields (encodeFields i) = .ok i := by
  cases i with
  | sll rt rd sa =>
    have other : ¬(rt = 0 ∧ rd = 0 ∧ sa = 1) := by simpa using wf
    exact if_neg other
  | addi _ _ imm | addiu _ _ imm | daddi _ _ imm | daddiu _ _ imm | slti _ _ imm | sltiu _ _ imm | andi _ _ imm
  | ori _ _ imm | xori _ _ imm | lui _ imm | tgei _ imm | tgeiu _ imm | tlti _ imm | tltiu _ imm | teqi _ imm
  | tnei _ imm | lb _ _ imm | lbu _ _ imm | lh _ _ imm | lhu _ _ imm | lw _ _ imm | lwu _ _ imm | ld _ _ imm
  | sb _ _ imm | sh _ _ imm | sw _ _ imm | sd _ _ imm | lwl _ _ imm | lwr _ _ imm | swl _ _ imm | swr _ _ imm
  | ldl _ _ imm | ldr _ _ imm | sdl _ _ imm | sdr _ _ imm | ll _ _ imm | lld _ _ imm | sc _ _ imm | scd _ _ imm
  | pref _ _ imm | lwc1 _ _ imm | ldc1 _ _ imm | swc1 _ _ imm | sdc1 _ _ imm | beq _ _ imm | bne _ _ imm
  | beql _ _ imm | bnel _ _ imm | blez _ imm | bgtz _ imm | blezl _ imm | bgtzl _ imm | bltz _ imm | bgez _ imm
  | bltzl _ imm | bgezl _ imm | bltzal _ imm | bgezal _ imm | bltzall _ imm | bgezall _ imm =>
    refine reads_pieces (imm_pieces imm) ?_
    rfl
  | j target | jal target =>
    refine reads_pieces (target_pieces target) ?_
    rfl
  | syscall code | brk code =>
    refine reads_pieces (code20_pieces code) ?_
    rfl
  | tge _ _ code | tgeu _ _ code | tlt _ _ code | tltu _ _ code | teq _ _ code | tne _ _ code =>
    refine reads_pieces (code10_pieces code) ?_
    rfl
  | cFS _ _ cc | cUnS _ _ cc | cEqS _ _ cc | cUeqS _ _ cc | cOltS _ _ cc | cUltS _ _ cc | cOleS _ _ cc | cUleS _ _ cc
  | cSfS _ _ cc | cNgleS _ _ cc | cSeqS _ _ cc | cNglS _ _ cc | cLtS _ _ cc | cNgeS _ _ cc | cLeS _ _ cc | cNgtS _ _ cc
  | cFD _ _ cc | cUnD _ _ cc | cEqD _ _ cc | cUeqD _ _ cc | cOltD _ _ cc | cUltD _ _ cc | cOleD _ _ cc | cUleD _ _ cc
  | cSfD _ _ cc | cNgleD _ _ cc | cSeqD _ _ cc | cNglD _ _ cc | cLtD _ _ cc | cNgeD _ _ cc | cLeD _ _ cc
  | cNgtD _ _ cc =>
    refine reads_cc cc 0 ?_
    rfl
  | movf | movt => simp [encodeFields, decodeFields, decodeSpecial]
  | movfS | movtS => simp [encodeFields, decodeFields, decodeCop1, decodeFmtS]
  | movfD | movtD => simp [encodeFields, decodeFields, decodeCop1, decodeFmtD]
  | bc1f | bc1t | bc1fl | bc1tl => simp [encodeFields, decodeFields, decodeCop1, decodeBc1]
  | _ => rfl

theorem decodeWord_encode {i : Instr} (wf : i.wellFormed = true) : decodeWord (encode i) = .ok i := by
  rw [decodeWord, encode, split_join, decodeFields_encodeFields i wf]

/-- The four bytes of a word are all of it. -/
@[simp] theorem word_bytes (w : IWord) :
    wordOfBytes (w.extractLsb' 24 8) (w.extractLsb' 16 8) (w.extractLsb' 8 8) (w.extractLsb' 0 8) = w := by
  rw [wordOfBytes, BitVec.extractLsb'_append_extractLsb'_eq_extractLsb' (show 24 = 16 + 8 from rfl),
    BitVec.extractLsb'_append_extractLsb'_eq_extractLsb' (show 16 = 8 + 8 from rfl),
    BitVec.extractLsb'_append_extractLsb'_eq_extractLsb' (show 8 = 0 + 8 from rfl)]
  exact BitVec.extractLsb'_eq_self

theorem decodeBytes_bytesOfWord (w : IWord) (rest : List Byte) :
    decodeBytes (bytesOfWord w ++ rest) = (decodeWord w).map (·, rest) := by
  simp [bytesOfWord, decodeBytes]

/-- Settles O1: the pieces are read back row by row, and neither the word nor its bytes lose a piece. -/
theorem decodeReadsEncode : Obligations.DecodeReadsEncode := by
  intro i wf
  refine ⟨decodeWord_encode wf, fun rest => ?_⟩
  rw [decodeBytes_bytesOfWord, decodeWord_encode wf]
  rfl

/-! ## Writing what was read -/

/-- What decoding pieces gives, if anything, is well formed and is written as these pieces. -/
def Recodes (f : Fields) (r : Except DecodeError Instr) : Prop :=
  ∀ i, r = .ok i → i.wellFormed = true ∧ encodeFields i = f

@[simp] theorem recodes_error (f : Fields) (e : DecodeError) : Recodes f (.error e) := nofun

@[simp] theorem recodes_ok {f : Fields} {i : Instr} : Recodes f (.ok i) ↔ i.wellFormed = true ∧ encodeFields i = f := by
  simp [Recodes]

theorem fields_eq_iff {f g : Fields} : f = g ↔
    f.op = g.op ∧ f.rs = g.rs ∧ f.rt = g.rt ∧ f.rd = g.rd ∧ f.sa = g.sa ∧ f.fn = g.fn := by
  cases f
  cases g
  exact Fields.mk.injEq .. ▸ Iff.rfl

/-- The encoder writes a fixed field as a literal, and the decoder selects a row by the number of the field. -/
theorem literal_eq_iff {w n : Nat} {x : BitVec w} : BitVec.ofNat w n = x ↔ x.toNat = n % 2 ^ w := by
  rw [← BitVec.toNat_inj, BitVec.toNat_ofNat, eq_comm]

section
variable {f : Fields}

/-! A table's row was selected by the number of a field and passed a guard on others; its instruction writes exactly these
and its operands. So each branch of a table either is an error or meets its fields one by one. -/

theorem decodeSpecial_recodes (op : f.op.toNat = 0) : Recodes f (decodeSpecial f) := by
  fun_cases decodeSpecial f <;> simp [encodeFields, fields_eq_iff, literal_eq_iff, *]
  case case2 notSsnop => exact fun rt rd sa => notSsnop ⟨rt, rd, sa⟩

theorem decodeRegimm_recodes (op : f.op.toNat = 1) : Recodes f (decodeRegimm f) := by
  fun_cases decodeRegimm f <;> simp [encodeFields, fields_eq_iff, literal_eq_iff, *]

theorem decodeCop0Op_recodes (op : f.op.toNat = 16) : Recodes f (decodeCop0Op f) := by
  fun_cases decodeCop0Op f <;> simp [encodeFields, fields_eq_iff, literal_eq_iff, *]

theorem decodeCop0_recodes (op : f.op.toNat = 16) : Recodes f (decodeCop0 f) := by
  fun_cases decodeCop0 f <;> simp [encodeFields, fields_eq_iff, literal_eq_iff, decodeCop0Op_recodes, *]

theorem decodeFmtS_recodes (op : f.op.toNat = 17) (fmt : f.rs.toNat = 16) : Recodes f (decodeFmtS f) := by
  fun_cases decodeFmtS f <;> simp [encodeFields, fields_eq_iff, literal_eq_iff, *]

theorem decodeFmtD_recodes (op : f.op.toNat = 17) (fmt : f.rs.toNat = 17) : Recodes f (decodeFmtD f) := by
  fun_cases decodeFmtD f <;> simp [encodeFields, fields_eq_iff, literal_eq_iff, *]

theorem decodeFmtW_recodes (op : f.op.toNat = 17) (fmt : f.rs.toNat = 20) : Recodes f (decodeFmtW f) := by
  fun_cases decodeFmtW f <;> simp [encodeFields, fields_eq_iff, literal_eq_iff, *]

theorem decodeFmtL_recodes (op : f.op.toNat = 17) (fmt : f.rs.toNat = 21) : Recodes f (decodeFmtL f) := by
  fun_cases decodeFmtL f <;> simp [encodeFields, fields_eq_iff, literal_eq_iff, *]

theorem decodeBc1_recodes (op : f.op.toNat = 17) (bc : f.rs.toNat = 8) : Recodes f (decodeBc1 f) := by
  fun_cases decodeBc1 f <;> simp [encodeFields, fields_eq_iff, literal_eq_iff, *]

theorem decodeCop1_recodes (op : f.op.toNat = 17) : Recodes f (decodeCop1 f) := by
  fun_cases decodeCop1 f <;> simp [encodeFields, fields_eq_iff, literal_eq_iff, decodeBc1_recodes, decodeFmtS_recodes,
    decodeFmtD_recodes, decodeFmtW_recodes, decodeFmtL_recodes, *]

theorem decodeCop1x_recodes (op : f.op.toNat = 19) : Recodes f (decodeCop1x f) := by
  fun_cases decodeCop1x f <;> simp [encodeFields, fields_eq_iff, literal_eq_iff, *]

end

theorem decodeFields_recodes (f : Fields) : Recodes f (decodeFields f) := by
  fun_cases decodeFields f <;> simp [encodeFields, fields_eq_iff, literal_eq_iff, decodeSpecial_recodes,
    decodeRegimm_recodes, decodeCop0_recodes, decodeCop1_recodes, decodeCop1x_recodes, *]

/-- Settles O2: what the pieces of the word decode to is written as these pieces, and they make the word. -/
theorem encodeReadsDecode : Obligations.EncodeReadsDecode := by
  intro w i read
  obtain ⟨wf, pieces⟩ := decodeFields_recodes (Fields.split w) i read
  exact ⟨wf, by rw [encode, pieces, join_split]⟩

/-- Settles O3: the decoder run on each of the words. -/
theorem decodeKnownWords : Obligations.DecodeKnownWords :=
  ⟨rfl, rfl, rfl, rfl, rfl, rfl, rfl, rfl, rfl, rfl, rfl, rfl, rfl, rfl, rfl, rfl, rfl⟩

/-! ## Words that are no instruction -/

/-- The words that coprocessor 1 would run: major opcode COP1 or COP1X, or MOVF and MOVT's funct of SPECIAL (R183). -/
def ForCop1 (w : IWord) : Prop :=
  w.extractLsb' 26 6 = 17 ∨ w.extractLsb' 26 6 = 19 ∨ (w.extractLsb' 26 6 = 0 ∧ w.extractLsb' 0 6 = 1)

theorem ForCop1.ne_cop0 {w : IWord} (cop1 : ForCop1 w) : w.extractLsb' 26 6 ≠ 16 := by
  rcases cop1 with op | op | ⟨op, _⟩ <;> rw [op] <;> decide

theorem runWord_error {s : State} {w : IWord} {x : DecodeError} (undecoded : decodeWord w = .error x) :
    runWord w s = .next (takeException (s.undecoded w) s) := by
  rw [runWord, undecoded]

theorem undecoded_cop0 {s : State} {w : IWord} (op : w.extractLsb' 26 6 = 16) (unusable : s.usable0 = false) :
    s.undecoded w = .coprocessorUnusable 0 :=
  if_pos ⟨op, unusable⟩

theorem undecoded_cop1 {s : State} {w : IWord} (cop1 : ForCop1 w) (unusable : s.usable1 = false) :
    s.undecoded w = .coprocessorUnusable 1 :=
  (if_neg fun cop0 => cop1.ne_cop0 cop0.1).trans (if_pos ⟨cop1, unusable⟩)

theorem undecoded_reserved {s : State} {w : IWord} (not0 : w.extractLsb' 26 6 = 16 → s.usable0 = true)
    (not1 : ForCop1 w → s.usable1 = true) : s.undecoded w = .reservedInstruction :=
  (if_neg fun cop0 => Bool.eq_false_iff.mp cop0.2 (not0 cop0.1)).trans
    (if_neg fun cop1 => Bool.eq_false_iff.mp cop1.2 (not1 cop1.1))

/-- Settles O4: the exception of the word, by the conditions under which it is each of the three. -/
theorem undecodedWordRaises : Obligations.UndecodedWordRaises := by
  intro s w x undecoded
  rw [runWord_error undecoded]
  refine ⟨fun op unusable => ?_, fun op usable => ?_, fun cop1 unusable => ?_, fun cop1 usable => ?_,
    fun not0 not17 not19 notMove => ?_⟩
  · rw [undecoded_cop0 op unusable]
  · rw [undecoded_reserved (fun _ => usable) fun cop1 => absurd op cop1.ne_cop0]
  · rw [undecoded_cop1 cop1 unusable]
  · rw [undecoded_reserved (fun op => absurd op (ForCop1.ne_cop0 cop1)) fun _ => usable]
  · have notCop1 : ¬ForCop1 w := by
      rintro (op | op | move)
      · exact not17 op
      · exact not19 op
      · exact notMove move
    rw [undecoded_reserved (absurd · not0) (absurd · notCop1)]

end Sys2Proof.Machine

/-! PROOFS. The integer unit (40_int_alu.md): logical operations and comparisons, adds and subtracts with and without Integer
Overflow, shifts, and conditional moves. -/

namespace Sys2Proof.Machine
open Sys2Proof

/-! ## Encodings -/

/-- A word is an instruction when its pieces are the ones that the encoder writes for it. -/
theorem Decodes.of_pieces {w : IWord} {i : Instr} (wf : i.wellFormed = true) (pieces : Fields.split w = encodeFields i) :
    Decodes w i := by
  rw [Decodes, decodeWord, pieces, decodeFields_encodeFields i wf]

/-! ## Integers and bit vectors -/

theorem sext32_eq_ofInt (w : BitVec 32) : sext32 w = BitVec.ofInt 64 w.toInt := rfl

@[simp] theorem toInt_sext16 (imm : BitVec 16) : (sext16 imm).toInt = imm.toInt :=
  BitVec.toInt_signExtend_of_le (by decide)

/-- The low bits of a value are those of the integer it stands for. -/
theorem setWidth_eq_ofInt {w v : Nat} (narrow : v ≤ w) (x : BitVec w) : x.setWidth v = BitVec.ofInt v x.toInt :=
  (BitVec.signExtend_eq_setWidth_of_le x narrow).symm

theorem lowWord_eq_ofInt (v : Word) : lowWord v = BitVec.ofInt 32 v.toInt := setWidth_eq_ofInt (by decide) v

theorem ofInt_sub {w : Nat} (x y : Int) : BitVec.ofInt w (x - y) = BitVec.ofInt w x - BitVec.ofInt w y := by
  rw [Int.sub_eq_add_neg, BitVec.ofInt_add, BitVec.ofInt_neg, BitVec.sub_eq_add_neg]

theorem add_eq_ofInt {w : Nat} (x y : BitVec w) : x + y = BitVec.ofInt w (x.toInt + y.toInt) := by
  simp [BitVec.ofInt_add]

theorem sub_eq_ofInt {w : Nat} (x y : BitVec w) : x - y = BitVec.ofInt w (x.toInt - y.toInt) := by
  simp [ofInt_sub]

theorem lowWord_add (a b : Word) : lowWord a + lowWord b = BitVec.ofInt 32 (a.toInt + b.toInt) := by
  rw [BitVec.ofInt_add, ← lowWord_eq_ofInt, ← lowWord_eq_ofInt]

theorem lowWord_sub (a b : Word) : lowWord a - lowWord b = BitVec.ofInt 32 (a.toInt - b.toInt) := by
  rw [ofInt_sub, ← lowWord_eq_ofInt, ← lowWord_eq_ofInt]

/-! ### Comparisons -/

theorem boolWord_slt (a b : Word) : boolWord (a.slt b) = if a.toInt < b.toInt then 1 else 0 := by
  simp only [boolWord, BitVec.slt_iff_toInt_lt]

theorem boolWord_ult (a b : Word) : boolWord (a.ult b) = if a.toNat < b.toNat then 1 else 0 := by
  simp only [boolWord, BitVec.ult_iff_toNat_lt]

/-! ### Shifts -/

theorem ushiftRight_eq_ofNat {w : Nat} (x : BitVec w) (n : Nat) : x >>> n = BitVec.ofNat w (x.toNat / 2 ^ n) := by
  rw [← Nat.shiftRight_eq_div_pow, ← BitVec.toNat_ushiftRight, BitVec.ofNat_toNat, BitVec.setWidth_eq]

theorem sshiftRight_eq_ofInt {w : Nat} (x : BitVec w) (n : Nat) : x.sshiftRight n = BitVec.ofInt w (x.toInt / 2 ^ n) := by
  rw [BitVec.sshiftRight_eq, Int.shiftRight_eq_div_pow]
  norm_cast

theorem sext32_sshiftRight (x : BitVec 32) (n : Nat) : sext32 (x.sshiftRight n) = BitVec.ofInt 64 (x.toInt / 2 ^ n) := by
  rw [sext32_eq_ofInt, BitVec.toInt_sshiftRight, Int.shiftRight_eq_div_pow]
  norm_cast

/-- The low bits of a register, as the number of places that a variable shift moves. -/
theorem toNat_lowBits (v : Word) (n : Nat) : (v.extractLsb' 0 n).toNat = v.toNat % 2 ^ n := by
  rw [toNat_extractLsb', Nat.pow_zero, Nat.div_one]

/-! ### Sign-extended words (R220) -/

/-- Sign extension puts a word of copies of the sign above the word. -/
theorem sext32_eq_append (w : BitVec 32) : sext32 w = w.sshiftRight 31 ++ w := by
  apply BitVec.eq_of_getLsbD_eq
  intro i bound
  rw [sext32, BitVec.getLsbD_signExtend, BitVec.getLsbD_append, BitVec.getLsbD_sshiftRight]
  by_cases low : i < 32
  · simp [low, bound]
  · have sign : 31 + (i - 32) < 32 → w.msb = w.getLsbD (31 + (i - 32)) := fun first => by
      rw [show i - 32 = 0 by omega]
      rfl
    simpa [low, bound, show ¬32 ≤ i - 32 by omega] using sign

theorem highWord_append_lowWord (v : Word) : highWord v ++ lowWord v = v := by
  rw [highWord, lowWord, BitVec.setWidth_eq_extractLsb' (by decide)]
  exact BitVec.extractLsb'_append_extractLsb'

/-- The machine's test, of the upper word against the sign of the lower one, finds the values that are no words. -/
theorem notWordValue_eq_false_iff (v : Word) : notWordValue v = false ↔ IsWord v := by
  calc notWordValue v = false
      ↔ highWord v = (lowWord v).sshiftRight 31 := by simp [notWordValue]
    _ ↔ highWord v ++ lowWord v = (lowWord v).sshiftRight 31 ++ lowWord v := (BitVec.append_left_inj _).symm
    _ ↔ v = sext32 (lowWord v) := by rw [highWord_append_lowWord, sext32_eq_append]
    _ ↔ IsWord v := eq_comm

theorem isWord_sext16 (imm : BitVec 16) : IsWord (sext16 imm) := by
  change BitVec.ofInt 64 (BitVec.setWidth 32 (sext16 imm)).toInt = BitVec.ofInt 64 imm.toInt
  congr 1
  rw [setWidth_eq_ofInt (by decide), toInt_sext16]
  exact BitVec.toInt_signExtend_of_le (by decide)

/-- A sign-extended word and its low word are the same integer. -/
theorem IsWord.toInt_lowWord {v : Word} (word : IsWord v) : (lowWord v).toInt = v.toInt := by
  calc (lowWord v).toInt = ((lowWord v).signExtend 64).toInt := (BitVec.toInt_signExtend_of_le (by decide)).symm
    _ = v.toInt := congrArg BitVec.toInt word

theorem State.wordResult_of_words (s : State) {a b : Word} (v : BitVec 32) (wordA : IsWord a) (wordB : IsWord b) :
    s.wordResult a b v = sext32 v := by
  simp [wordResult, (notWordValue_eq_false_iff _).mpr, wordA, wordB]

/-! ## Integer overflow (R222) -/

/-- Whether an integer fits two's complement with a sign and this many bits below it. -/
def Fits (bits : Nat) (x : Int) : Prop := -(2 ^ bits : Int) ≤ x ∧ x < 2 ^ bits

theorem fits_toInt {w : Nat} (x : BitVec (w + 1)) : Fits w x.toInt := ⟨BitVec.le_toInt x, BitVec.toInt_lt⟩

theorem toInt_ofInt_of_fits {w : Nat} {x : Int} (fits : Fits w x) : (BitVec.ofInt (w + 1) x).toInt = x :=
  BitVec.toInt_ofInt_eq_self (Nat.succ_pos w) fits.1 fits.2

/-- One more bit holds the sum of any two values. -/
theorem toInt_wideAdd {w : Nat} (x y : BitVec (w + 1)) :
    (x.signExtend (w + 2) + y.signExtend (w + 2)).toInt = x.toInt + y.toInt := by
  obtain ⟨xLow, xHigh⟩ := fits_toInt x
  obtain ⟨yLow, yHigh⟩ := fits_toInt y
  rw [BitVec.signExtend, BitVec.signExtend, ← BitVec.ofInt_add, toInt_ofInt_of_fits]
  constructor <;> rw [pow_succ] <;> omega

/-- One more bit holds the difference of any two values. -/
theorem toInt_wideSub {w : Nat} (x y : BitVec (w + 1)) :
    (x.signExtend (w + 2) - y.signExtend (w + 2)).toInt = x.toInt - y.toInt := by
  obtain ⟨xLow, xHigh⟩ := fits_toInt x
  obtain ⟨yLow, yHigh⟩ := fits_toInt y
  rw [BitVec.signExtend, BitVec.signExtend, ← ofInt_sub, toInt_ofInt_of_fits]
  constructor <;> rw [pow_succ] <;> omega

/-- A value whose two top bits differ is one that the bits below the top do not hold. -/
theorem top_bits_differ_iff {w : Nat} (t : BitVec (2 + w)) : t.getLsbD (w + 1) ≠ t.getLsbD w ↔ ¬Fits w t.toInt := by
  rw [← BitVec.extractLsb'_append_extractLsb' (x := t)]
  generalize t.extractLsb' w 2 = top, t.extractLsb' 0 w = low
  have bound : (low.toNat : Int) < 2 ^ w := by exact_mod_cast low.isLt
  have value : (top ++ low).toInt = 2 ^ w * top.toInt + low.toNat := BitVec.toInt_append
  have above : ∀ k, (top ++ low).getLsbD (w + k) = top.getLsbD k := by simp [BitVec.getLsbD_append]
  rw [Fits, value, above 1, show (top ++ low).getLsbD w = top.getLsbD 0 from above 0]
  have cases : ∀ x : BitVec 2, x = 0 ∨ x = 1 ∨ x = 2 ∨ x = 3 := by decide
  rcases cases top with rfl | rfl | rfl | rfl <;> simp <;> omega

theorem overflow32_iff (t : BitVec 33) : overflow32 t = true ↔ ¬Fits 31 t.toInt :=
  bne_iff_ne.trans (top_bits_differ_iff (w := 31) t)

theorem overflow64_iff (t : BitVec 65) : overflow64 t = true ↔ ¬Fits 63 t.toInt :=
  bne_iff_ne.trans (top_bits_differ_iff (w := 63) t)

/-! ## How an instruction of the integer unit completes -/

/-- The instruction writes an exact result where that fits, and takes Integer Overflow where not (R222). -/
def WritesOrOverflows (i : Instr) (s : State) (rd : Reg) (bits : Nat) (x : Int) : Prop :=
  (Fits bits x → WritesReg i s rd (BitVec.ofInt 64 x)) ∧ (¬Fits bits x → Raises i s .overflow)

section
variable {i : Instr} {s : State} {rd : Reg}

theorem WritesReg.of_run {v w : Word} (run : exec i s = (s.writeReg rd w).finish s) (value : w = v) : WritesReg i s rd v :=
  .of_exec (value ▸ run)

/-- A word operation writes the sign-extended result when its operands are words (R220). -/
theorem WritesReg.of_wordResult {a b v : Word} {w : BitVec 32}
    (run : exec i s = (s.writeReg rd (s.wordResult a b w)).finish s) (wordA : IsWord a) (wordB : IsWord b)
    (value : sext32 w = v) : WritesReg i s rd v :=
  .of_run run ((s.wordResult_of_words w wordA wordB).trans value)

/-- A word operation that tests for overflow, on operands that are words (R200, R201, R207). -/
theorem WritesOrOverflows.of_words {a b : Word} {t : BitVec 33} {x : Int}
    (run : exec i s = (s.writeWordOrTrap rd a b t).finish s) (wordA : IsWord a) (wordB : IsWord b) (wide : t.toInt = x) :
    WritesOrOverflows i s rd 31 x := by
  rw [State.writeWordOrTrap, (notWordValue_eq_false_iff a).mpr wordA, (notWordValue_eq_false_iff b).mpr wordB,
    Bool.or_false, if_neg Bool.false_ne_true] at run
  subst wide
  constructor
  · intro fits
    rw [if_neg (mt (overflow32_iff t).mp (not_not_intro fits))] at run
    refine .of_run run ?_
    rw [sext32_eq_ofInt, setWidth_eq_ofInt (by decide), toInt_ofInt_of_fits fits]
  · intro overflows
    rwa [if_pos ((overflow32_iff t).mpr overflows)] at run

/-- A word operation that tests for overflow completes on operands that are no words (D27). -/
theorem WritesReg.of_nonword {a b : Word} {t : BitVec 33} (run : exec i s = (s.writeWordOrTrap rd a b t).finish s)
    (nonword : ¬(IsWord a ∧ IsWord b)) : WritesReg i s rd (Config.freeWord .wordOperand s.draws) := by
  have caught : (notWordValue a || notWordValue b) = true := by
    rw [← notWordValue_eq_false_iff, ← notWordValue_eq_false_iff] at nonword
    simpa [imp_iff_not_or] using nonword
  rw [State.writeWordOrTrap, if_pos caught] at run
  exact .of_exec run

/-- A doubleword operation that tests for overflow (R204, R205, R210). -/
theorem WritesOrOverflows.of_doublewords {t : BitVec 65} {x : Int}
    (run : exec i s = (s.writeDoubleOrTrap rd t).finish s) (wide : t.toInt = x) : WritesOrOverflows i s rd 63 x := by
  rw [State.writeDoubleOrTrap] at run
  subst wide
  constructor
  · intro fits
    rw [if_neg (mt (overflow64_iff t).mp (not_not_intro fits))] at run
    exact .of_run run (setWidth_eq_ofInt (by decide) t)
  · intro overflows
    rwa [if_pos ((overflow64_iff t).mpr overflows)] at run

theorem State.testCc_of_settled (s : State) {cc : CC} (settled : s.fccBusy.getLsbD cc.toNat = false) :
    s.testCc cc = s.fsr.cc cc := by
  rw [testCc, settled, if_neg Bool.false_ne_true]

/-- A conditional move (R259): it is performed when its test holds, and nothing happens when not. -/
theorem moves_of_run {rs : Reg} {test : Bool} {holds : Prop} (tests : test = true ↔ holds)
    (run : exec i s = (s.moveIf test rd rs).finish s) :
    (holds → WritesReg i s rd (s.reg rs)) ∧ (¬holds → DoesNothing i s) := by
  rw [← tests]
  cases test with
  | true => exact ⟨fun _ => .of_exec run, absurd rfl⟩
  | false => exact ⟨nofun, fun _ => .of_exec run⟩

/-- A conditional move, whatever its test says. -/
theorem moves_or_not_of_run {rs : Reg} {test : Bool} (run : exec i s = (s.moveIf test rd rs).finish s) :
    WritesReg i s rd (s.reg rs) ∨ DoesNothing i s := by
  obtain ⟨moves, stays⟩ := moves_of_run Iff.rfl run
  exact (em (test = true)).imp moves stays

end

/-! ## The instructions -/

/-- Settles O11: each result of the model in the terms of the statement. -/
theorem logicalAndCompare : Obligations.LogicalAndCompare := by
  constructor
  · intro s rs rt rd
    exact ⟨.of_pieces rfl (split_rType ..), .of_exec rfl, .of_pieces rfl (split_rType ..), .of_exec rfl,
      .of_pieces rfl (split_rType ..), .of_exec rfl, .of_pieces rfl (split_rType ..), .of_exec rfl,
      .of_pieces rfl (split_rType ..), .of_run rfl (boolWord_slt ..),
      .of_pieces rfl (split_rType ..), .of_run rfl (boolWord_ult ..)⟩
  · intro s rs rt imm
    have slti := boolWord_slt (s.reg rs) (sext16 imm)
    rw [toInt_sext16] at slti
    have lui : sext32 (imm ++ 0#16) = BitVec.ofInt 64 (imm.toInt * 65536) := by
      rw [sext32_eq_ofInt, BitVec.toInt_append_zero, Int.mul_comm]
      rfl
    exact ⟨.of_pieces rfl (split_iType ..), .of_exec rfl, .of_pieces rfl (split_iType ..), .of_exec rfl,
      .of_pieces rfl (split_iType ..), .of_exec rfl, .of_pieces rfl (split_iType ..), .of_run rfl slti,
      .of_pieces rfl (split_iType ..), .of_run rfl (boolWord_ult ..),
      .of_pieces rfl (split_iType ..), .of_run rfl lui⟩

/-- Settles O12: on words the low words are the integers of the registers, so the wide sum is the exact one. -/
theorem wordAddSubtract : Obligations.WordAddSubtract := by
  constructor
  · intro s rs rt rd imm
    refine ⟨.of_pieces rfl (split_rType ..), .of_pieces rfl (split_iType ..), .of_pieces rfl (split_rType ..),
      fun wordS wordT => .of_wordResult rfl wordS wordT ?_, fun wordS => .of_wordResult rfl wordS (isWord_sext16 imm) ?_,
      fun wordS wordT => .of_wordResult rfl wordS wordT ?_, ⟨_, .of_run rfl rfl⟩, ⟨_, .of_run rfl rfl⟩, ⟨_, .of_run rfl rfl⟩⟩
    · rw [lowWord_add, sext32]
    · rw [lowWord_add, sext32, toInt_sext16]
    · rw [lowWord_sub, sext32]
  · intro s rs rt rd imm
    have immWord := isWord_sext16 imm
    refine ⟨.of_pieces rfl (split_rType ..), .of_pieces rfl (split_iType ..), .of_pieces rfl (split_rType ..),
      fun wordS wordT => WritesOrOverflows.of_words rfl wordS wordT ?_,
      fun wordS => WritesOrOverflows.of_words rfl wordS immWord ?_,
      fun wordS wordT => WritesOrOverflows.of_words rfl wordS wordT ?_,
      fun nonword => ⟨_, .of_nonword rfl nonword⟩,
      fun nonword => ⟨_, .of_nonword (b := sext16 imm) rfl fun ⟨wordS, _⟩ => nonword wordS⟩,
      fun nonword => ⟨_, .of_nonword rfl nonword⟩⟩
    · rw [addWide32, toInt_wideAdd, wordS.toInt_lowWord, wordT.toInt_lowWord]
    · rw [addWide32, toInt_wideAdd, wordS.toInt_lowWord, immWord.toInt_lowWord, toInt_sext16]
    · rw [subWide32, toInt_wideSub, wordS.toInt_lowWord, wordT.toInt_lowWord]

/-- Settles O13: behind the guard, the wide sum is the exact one. -/
theorem doublewordAddSubtract : Obligations.DoublewordAddSubtract := by
  constructor
  · intro s rs rt rd imm
    refine ⟨.of_pieces rfl (split_rType ..), .of_pieces rfl (split_iType ..), .of_pieces rfl (split_rType ..),
      .of_bind rfl fun run => .of_run run ?_, .of_bind rfl fun run => .of_run run ?_, .of_bind rfl fun run => .of_run run ?_⟩
    · rw [BitVec.ofNat_add, BitVec.ofNat_toNat, BitVec.ofNat_toNat, BitVec.setWidth_eq, BitVec.setWidth_eq]
    · rw [add_eq_ofInt, toInt_sext16]
    · rw [sub_eq_ofInt]
  · intro s rs rt rd imm
    refine ⟨.of_pieces rfl (split_rType ..), .of_pieces rfl (split_iType ..), .of_pieces rfl (split_rType ..),
      .of_bind rfl fun run => WritesOrOverflows.of_doublewords run ?_,
      .of_bind rfl fun run => WritesOrOverflows.of_doublewords run ?_,
      .of_bind rfl fun run => WritesOrOverflows.of_doublewords run ?_, rfl⟩
    · rw [addWide64, toInt_wideAdd]
    · rw [addWide64, toInt_wideAdd, toInt_sext16]
    · rw [subWide64, toInt_wideSub]

/-- Settles O14: a right shift of a word is a division that rounds down, of its low word or of its integer. -/
theorem wordShifts : Obligations.WordShifts := by
  intro s rs rt rd sa
  refine ⟨fun other => .of_pieces ((wellFormed_iff _).mpr ?_) (split_rType ..), .of_pieces rfl (split_rType ..),
    .of_pieces rfl (split_rType ..), .of_pieces rfl (split_rType ..), .of_pieces rfl (split_rType ..),
    .of_pieces rfl (split_rType ..), .of_exec rfl, .of_run rfl ?_,
    fun word => .of_wordResult rfl word word ?_, fun wordS wordT => .of_wordResult rfl wordS wordT ?_,
    fun word => .of_wordResult rfl word word ?_, fun wordS wordT => .of_wordResult rfl wordS wordT ?_,
    ⟨_, .of_run rfl rfl⟩, ⟨_, .of_run rfl rfl⟩, ⟨_, .of_run rfl rfl⟩, ⟨_, .of_run rfl rfl⟩⟩
  · simpa using other
  · rw [toNat_lowBits, sext32, lowWord]
    rfl
  · rw [ushiftRight_eq_ofNat, sext32, lowWord]
  · rw [ushiftRight_eq_ofNat, toNat_lowBits, sext32, lowWord]
    rfl
  · rw [sext32_sshiftRight, word.toInt_lowWord]
  · rw [sext32_sshiftRight, wordT.toInt_lowWord, toNat_lowBits]
    rfl

/-- Settles O15: behind the guard, a right shift is a division that rounds down. -/
theorem doublewordShifts : Obligations.DoublewordShifts := by
  intro s rs rt rd sa
  refine ⟨.of_pieces rfl (split_rType ..), .of_bind rfl fun run => .of_exec run,
    .of_pieces rfl (split_rType ..), .of_bind rfl fun run => .of_run run (ushiftRight_eq_ofNat ..),
    .of_pieces rfl (split_rType ..), .of_bind rfl fun run => .of_run run (sshiftRight_eq_ofInt ..),
    .of_pieces rfl (split_rType ..), .of_bind rfl fun run => .of_exec run,
    .of_pieces rfl (split_rType ..), .of_bind rfl fun run => .of_run run (ushiftRight_eq_ofNat ..),
    .of_pieces rfl (split_rType ..), .of_bind rfl fun run => .of_run run (sshiftRight_eq_ofInt ..),
    .of_pieces rfl (split_rType ..), .of_bind rfl fun run => .of_run run ?_,
    .of_pieces rfl (split_rType ..), .of_bind rfl fun run => .of_run run ?_,
    .of_pieces rfl (split_rType ..), .of_bind rfl fun run => .of_run run ?_⟩
  · rw [toNat_lowBits]
    rfl
  · rw [ushiftRight_eq_ofNat, toNat_lowBits]
    rfl
  · rw [sshiftRight_eq_ofInt, toNat_lowBits]
    rfl

/-- Settles O16: behind its guards each move tests its condition, which the record of busy codes leaves as it stands. -/
theorem integerConditionalMoves : Obligations.IntegerConditionalMoves := by
  intro s rs rt rd cc
  refine ⟨.of_pieces rfl (split_rType ..), .of_pieces rfl (split_rType ..), .of_pieces rfl (split_rType ..),
    .of_pieces rfl (split_rType ..),
    .of_bind rfl (moves_of_run beq_iff_eq), .of_bind rfl (moves_of_run bne_iff_ne),
    .of_bind rfl fun run => .of_bind run fun run settled => moves_of_run ?_ run,
    .of_bind rfl fun run => .of_bind run fun run settled => moves_of_run ?_ run,
    .of_bind rfl fun run => .of_bind run moves_or_not_of_run, .of_bind rfl fun run => .of_bind run moves_or_not_of_run⟩
  · rw [s.testCc_of_settled settled, Bool.not_eq_true']
  · rw [s.testCc_of_settled settled]

end Sys2Proof.Machine

/-! PROOFS. Multiply, divide, and the moves of HI and LO (41_muldiv.md). -/

namespace Sys2Proof.Machine
open Sys2Proof

/-! ## Products and quotients as integers -/

/-- The product of two values at a greater width is the exact signed product (R270, R274). -/
theorem signExtend_mul_signExtend {w : Nat} (n : Nat) (x y : BitVec w) :
    x.signExtend n * y.signExtend n = BitVec.ofInt n (x.toInt * y.toInt) :=
  (BitVec.ofInt_mul ..).symm

/-- The product of two values at a greater width is the exact unsigned product (R271, R275). -/
theorem setWidth_mul_setWidth {w : Nat} (n : Nat) (x y : BitVec w) :
    x.setWidth n * y.setWidth n = BitVec.ofNat n (x.toNat * y.toNat) := by
  rw [BitVec.ofNat_mul, BitVec.ofNat_toNat, BitVec.ofNat_toNat]

/-- The operands of the one signed division whose quotient does not fit, as bit patterns and as integers. -/
theorem intMin_and_allOnes_iff {w : Nat} (x y : BitVec (w + 1)) :
    x = BitVec.intMin (w + 1) ∧ y = BitVec.allOnes (w + 1) ↔ x.toInt = -(2 ^ w : Int) ∧ y.toInt = -1 := by
  rw [← BitVec.toInt_inj, ← BitVec.toInt_inj, BitVec.toInt_intMin_of_pos w.succ_pos, BitVec.toInt_allOnes,
    if_pos w.succ_pos, Nat.succ_sub_one]

/-- Where the quotient fits, it is that of the integers, truncated toward zero (R272, R276). -/
theorem toInt_sdiv_of_fits {w : Nat} {x y : BitVec (w + 1)} (fits : ¬(x.toInt = -(2 ^ w : Int) ∧ y.toInt = -1)) :
    (x.sdiv y).toInt = x.toInt.tdiv y.toInt := by
  rw [← intMin_and_allOnes_iff, ← BitVec.neg_one_eq_allOnes] at fits
  exact BitVec.toInt_sdiv_of_ne_or_ne x y (not_and_or.mp fits)

/-- The machine's test for the corner cases of a signed division finds no other operands (R272, R276). -/
theorem divideCorner_eq_false {w : Nat} {x y : BitVec (w + 1)} (divisor : y ≠ 0)
    (fits : ¬(x.toInt = -(2 ^ w : Int) ∧ y.toInt = -1)) :
    (y == 0 || x == BitVec.intMin (w + 1) && y == BitVec.allOnes (w + 1)) = false := by
  rw [← intMin_and_allOnes_iff] at fits
  rw [beq_false_of_ne divisor, Bool.false_or]
  simpa using fits

/-- The low word of a sign-extended word other than 0 is not 0 either. -/
theorem IsWord.lowWord_ne_zero {v : Word} (word : IsWord v) (nonzero : v ≠ 0) : lowWord v ≠ 0 := by
  rintro zero
  apply nonzero
  calc v = sext32 (lowWord v) := word.symm
    _ = 0 := by rw [zero]; rfl

/-! ## How a multiply or divide completes -/

section
variable (s : State) {a b : Word}

theorem State.writeProduct32_of_words (p : BitVec 64) (wordA : IsWord a) (wordB : IsWord b) :
    s.writeProduct32 a b p = s.writeHiLo (sext32 (highWord p)) (sext32 (lowWord p)) := by
  simp [writeProduct32, (notWordValue_eq_false_iff _).mpr, wordA, wordB]

theorem State.writeQuotient32_of_words {corner : Bool} (q r : BitVec 32) (wordA : IsWord a) (wordB : IsWord b)
    (regular : corner = false) : s.writeQuotient32 a b corner q r = s.writeHiLo (sext32 r) (sext32 q) := by
  simp [writeQuotient32, (notWordValue_eq_false_iff _).mpr, wordA, wordB, regular]

theorem State.writeQuotient64_of_regular {corner : Bool} (q r : Word) (regular : corner = false) :
    s.writeQuotient64 corner q r = s.writeHiLo r q := by
  rw [writeQuotient64, regular, if_neg Bool.false_ne_true]

end

/-- A completion that writes HI and LO and does nothing else, whatever the values. -/
def Access.WritesSomeHiLo (s : State) (x : Access State) : Prop := ∃ hi lo, x = s.writeHiLo hi lo

section
variable (s : State)

theorem State.writeProduct32_writesSomeHiLo (a b : Word) (p : BitVec 64) :
    (s.writeProduct32 a b p).WritesSomeHiLo s := by
  unfold writeProduct32
  split <;> exact ⟨_, _, rfl⟩

theorem State.writeQuotient32_writesSomeHiLo (a b : Word) (corner : Bool) (q r : BitVec 32) :
    (s.writeQuotient32 a b corner q r).WritesSomeHiLo s := by
  unfold writeQuotient32
  split <;> exact ⟨_, _, rfl⟩

theorem State.writeQuotient64_writesSomeHiLo (corner : Bool) (q r : Word) :
    (s.writeQuotient64 corner q r).WritesSomeHiLo s := by
  unfold writeQuotient64
  split <;> exact ⟨_, _, rfl⟩

end

section
variable {i : Instr} {s : State}

theorem WritesHiLo.of_run {hi lo hi' lo' : Word} (run : exec i s = (s.writeHiLo hi' lo').finish s) (hiValue : hi' = hi)
    (loValue : lo' = lo) : WritesHiLo i s hi lo :=
  .of_exec (hiValue ▸ loValue ▸ run)

theorem someHiLo_of_run {x : Access State} (run : exec i s = x.finish s) (writes : x.WritesSomeHiLo s) :
    ∃ hi lo, WritesHiLo i s hi lo := by
  obtain ⟨hi, lo, rfl⟩ := writes
  exact ⟨hi, lo, .of_exec run⟩

/-- A word multiply of words, from its exact product (R270, R271). -/
theorem WritesHiLo.of_product32 {a b : Word} {p product : BitVec 64}
    (run : exec i s = (s.writeProduct32 a b p).finish s) (wordA : IsWord a) (wordB : IsWord b) (value : p = product) :
    WritesHiLo i s ((product.extractLsb' 32 32).signExtend 64) ((product.extractLsb' 0 32).signExtend 64) := by
  rw [s.writeProduct32_of_words p wordA wordB, value] at run
  refine .of_run run rfl ?_
  rw [sext32, lowWord, BitVec.setWidth_eq_extractLsb' (by decide)]

/-- A doubleword multiply, from its exact product (R274, R275). -/
theorem WritesHiLo.of_product64 {p product : BitVec 128} (run : exec i s = (s.writeProduct64 p).finish s)
    (value : p = product) : WritesHiLo i s (product.extractLsb' 64 64) (product.extractLsb' 0 64) :=
  .of_exec (value ▸ run)

/-- A word divide of words outside the corner cases (R272, R273). -/
theorem WritesHiLo.of_quotient32 {a b hi lo : Word} {corner : Bool} {q r : BitVec 32}
    (run : exec i s = (s.writeQuotient32 a b corner q r).finish s) (wordA : IsWord a) (wordB : IsWord b)
    (regular : corner = false) (remainder : sext32 r = hi) (quotient : sext32 q = lo) : WritesHiLo i s hi lo :=
  .of_run (s.writeQuotient32_of_words q r wordA wordB regular ▸ run) remainder quotient

/-- A doubleword divide outside the corner cases (R276, R277). -/
theorem WritesHiLo.of_quotient64 {hi lo : Word} {corner : Bool} {q r : Word}
    (run : exec i s = (s.writeQuotient64 corner q r).finish s) (regular : corner = false) (remainder : r = hi)
    (quotient : q = lo) : WritesHiLo i s hi lo :=
  .of_run (s.writeQuotient64_of_regular q r regular ▸ run) remainder quotient

/-- A read of HI or LO into a general register, which ends the wait for a result (R280, R282). -/
theorem reads_of_exec {rd : Reg} {v : Word}
    (run : exec i s = .next { (s.setReg rd v).advance with hiloBusy := false }) :
    ∃ t, exec i s = .next t ∧ Advances s t ∧ t.reg rd = (if rd = 0 then 0 else v) ∧ KeepsRegsBut s t rd ∧
      t.hiloBusy = false ∧ KeepsAllBut s t [.regs, .hiloBusy] := by
  refine ⟨_, run, ?_, s.reg_setReg_same rd v, fun q other => s.reg_setReg_other v other, rfl, ?_⟩
  · simp [Advances]
  · intro p kept
    cases p <;> simp_all [Keeps]

end

/-! ## The instructions -/

/-- Settles O17: products and quotients are the exact ones outside the corner cases, and what completes there still writes
HI and LO alone. -/
theorem multiplyDivideHiLo : Obligations.MultiplyDivideHiLo := by
  refine ⟨fun s rs rt => ?_, fun s rs rt => ?_, fun s rs rd => ?_⟩
  · refine ⟨.of_pieces rfl (split_rType ..), .of_pieces rfl (split_rType ..), .of_pieces rfl (split_rType ..),
      .of_pieces rfl (split_rType ..), fun wordS wordT => .of_product32 rfl wordS wordT ?_,
      fun wordS wordT => .of_product32 rfl wordS wordT (setWidth_mul_setWidth ..),
      someHiLo_of_run rfl (s.writeProduct32_writesSomeHiLo ..), someHiLo_of_run rfl (s.writeProduct32_writesSomeHiLo ..),
      .of_bind rfl fun run => .of_product64 run (signExtend_mul_signExtend ..),
      .of_bind rfl fun run => .of_product64 run (setWidth_mul_setWidth ..)⟩
    rw [signExtend_mul_signExtend, wordS.toInt_lowWord, wordT.toInt_lowWord]
  · refine ⟨.of_pieces rfl (split_rType ..), .of_pieces rfl (split_rType ..), .of_pieces rfl (split_rType ..),
      .of_pieces rfl (split_rType ..), fun wordS wordT divisor fits => ?_,
      fun wordS wordT divisor => .of_quotient32 rfl wordS wordT (beq_false_of_ne (wordT.lowWord_ne_zero divisor)) ?_ ?_,
      .of_bind rfl fun run divisor fits => .of_quotient64 run (divideCorner_eq_false divisor fits) ?_ ?_,
      .of_bind rfl fun run divisor => .of_quotient64 run (beq_false_of_ne divisor) BitVec.umod_def BitVec.udiv_def,
      someHiLo_of_run rfl (s.writeQuotient32_writesSomeHiLo ..), someHiLo_of_run rfl (s.writeQuotient32_writesSomeHiLo ..),
      .of_bind rfl fun run => someHiLo_of_run run (s.writeQuotient64_writesSomeHiLo ..),
      .of_bind rfl fun run => someHiLo_of_run run (s.writeQuotient64_writesSomeHiLo ..)⟩
    · rw [← wordS.toInt_lowWord, ← wordT.toInt_lowWord] at fits ⊢
      refine .of_quotient32 rfl wordS wordT (divideCorner_eq_false (wordT.lowWord_ne_zero divisor) fits) ?_ ?_
      · rw [sext32_eq_ofInt, BitVec.toInt_srem]
      · rw [sext32_eq_ofInt, toInt_sdiv_of_fits fits]
    · rw [BitVec.umod_def]
      rfl
    · rw [BitVec.udiv_def]
      rfl
    · rw [← BitVec.toInt_srem, BitVec.ofInt_toInt]
    · rw [← toInt_sdiv_of_fits fits, BitVec.ofInt_toInt]
  · refine ⟨.of_pieces rfl (split_rType ..), .of_pieces rfl (split_rType ..), .of_pieces rfl (split_rType ..),
      .of_pieces rfl (split_rType ..), reads_of_exec rfl, reads_of_exec rfl,
      ⟨_, .of_exec (b := s.hiloBusy) rfl, fun idle => ?_⟩, ⟨_, .of_exec (b := s.hiloBusy) rfl, fun idle => ?_⟩⟩
    · rw [idle, if_neg Bool.false_ne_true]
    · rw [idle, if_neg Bool.false_ne_true]

end Sys2Proof.Machine

/-! PROOFS. Integer loads and stores, LL and SC, SYNC and the prefetches (42_loadstore.md): what a load puts in its register,
which bytes a store writes, what both leave in the caches, and which instructions change LLbit. -/

namespace Sys2Proof.Machine
open Sys2Proof

/-! ## What an instruction does with its address -/

section
variable {i : Instr} {s : State} {α : Type} {x : Access α} {f : α → Access State}

theorem runs_of_ok {a : α} (run : exec i s = (x.bind f).finish s) (given : x = .ok a) : exec i s = (f a).finish s := by
  rw [run, given, Access.bind_ok]

theorem raises_of_raise {e : Exc} (run : exec i s = (x.bind f).finish s) (failed : x = .raise e) : Raises i s e := by
  rw [Raises, run, failed]
  rfl

theorem raises_behind_ux {e : Exc} (ux : UxOn s) (run : exec i s = ((needUx s).bind fun _ => x.bind f).finish s) :
    x = .raise e → Raises i s e :=
  raises_of_raise (runs_of_ok (f := fun _ => x.bind f) run (needUx_ok ux))

end

/-- Settles O26: the address is the first part of every load and store behind its guard. -/
theorem failedAccessesRaise : Obligations.FailedAccessesRaise := by
  intro s base rt off e
  exact ⟨raises_of_raise rfl, raises_of_raise rfl, raises_of_raise rfl, raises_of_raise rfl, raises_of_raise rfl,
    raises_of_raise rfl, raises_of_raise rfl, raises_of_raise rfl, raises_of_raise rfl, raises_of_raise rfl,
    raises_of_raise rfl, raises_of_raise rfl, raises_of_raise rfl, raises_of_raise rfl, fun ux =>
    ⟨raises_behind_ux ux rfl, raises_behind_ux ux rfl, raises_behind_ux ux rfl, raises_behind_ux ux rfl,
      raises_behind_ux ux rfl, raises_behind_ux ux rfl, raises_behind_ux ux rfl, raises_behind_ux ux rfl,
      raises_behind_ux ux rfl⟩⟩

/-! ## SYNC, the prefetches and SSNOP -/

/-- A prefetch asks of its address that it passes the region check and is legal (R157, D29, U36). -/
theorem prefetches_of_run {i : Instr} {s : State} {base : Reg} {off : Word}
    (run : exec i s = (s.prefetch base off).finish s) :
    (∀ va neg, s.addrCalc .load base off = .ok (va, neg) → (legalAddress va s.user = true → DoesNothing i s) ∧
      (legalAddress va s.user = false → exec i s = .refused .prefetchAddress)) ∧
    ∀ e, s.addrCalc .load base off = .raise e → Raises i s e := by
  refine ⟨fun va neg formed => ?_, fun e => raises_of_raise run⟩
  have run := runs_of_ok run formed
  constructor
  · intro legal
    rw [if_pos legal] at run
    exact .of_exec run
  · intro illegal
    rwa [if_neg (Bool.eq_false_iff.mp illegal)] at run

/-- Settles O25: behind its guards a prefetch only forms its address, and SSNOP only moves the windows of late writes on. -/
theorem syncPrefetchAndSsnop : Obligations.SyncPrefetchAndSsnop := by
  intro s base index off hint
  refine ⟨.of_pieces rfl (split_rType ..), .of_pieces rfl (split_iType ..), .of_pieces rfl (split_rType ..),
    .of_pieces rfl (split_rType ..), .of_exec rfl, .of_bind rfl prefetches_of_run,
    .of_bind rfl fun run => .of_bind run prefetches_of_run, _, rfl, ⟨rfl, rfl, rfl⟩, ?_⟩
  intro p other
  cases p with
  | late => simp at other
  | regs => exact fun _ => rfl
  | memory => exact fun _ => rfl
  | _ => rfl

/-! ## Whole loads and stores -/

/-- A loaded value has no bits above its bytes. -/
theorem State.loadInt_lt (s : State) (va : Word) (t : Translation) (n : Nat) : (s.loadInt va t n).1.toNat < 256 ^ n := by
  have bound := s.toNat_valueOf_lt t.pa (s.loadBytes va t n).1
  rwa [State.loadBytes_length] at bound

theorem State.loadInt_zeroExtended (s : State) (va : Word) (t : Translation) (n : Nat) :
    (s.loadInt va t n).1 = ((s.loadInt va t n).1.setWidth (8 * n)).setWidth 64 := by
  refine BitVec.eq_of_toNat_eq ?_
  have bound := s.loadInt_lt va t n
  rw [show 256 = 2 ^ 8 by rfl, ← Nat.pow_mul] at bound
  rw [BitVec.toNat_setWidth, BitVec.toNat_setWidth, Nat.mod_eq_of_lt bound, Nat.mod_eq_of_lt (BitVec.isLt _)]

section
variable {i : Instr} {s : State} {n : Nat} {rt base : Reg} {off : Word}

/-- A whole load, by the value its register gets. -/
theorem loads_of_run {extend : Word → Word} {value : Word → Translation → Word} (pos : 0 < n)
    (run : exec i s = (s.load n extend rt base off).finish s)
    (extended : ∀ va t, extend (s.loadInt va t n).1 = value va t) (va : Word) (t : Translation)
    (address : s.dataAddress .load n base off = .ok (va, t)) :
    LoadsReg i s rt (value va t) ∧ Leaves i s (LoadedCaches s va t n) := by
  have completes : exec i s = .next ((s.loadInt va t n).2.setReg rt (extend (s.loadInt va t n).1)).advance := by
    rw [run, State.load, address]
    rfl
  rw [extended] at completes
  exact ⟨.of_exec completes (s.loadInt_cacheOnly va t n), .of_load pos completes⟩

/-- A whole store. -/
theorem stores_of_run (pos : 0 < n) (run : exec i s = (s.store n rt base off).finish s) (va : Word) (t : Translation)
    (address : s.dataAddress .store n base off = .ok (va, t)) :
    StoresBytes i s t.pa.toNat (storedBytes s.bigEndian n (s.reg rt)) [] ∧
      Leaves i s (StoredCaches s va t (storedBytes s.bigEndian n (s.reg rt))) :=
  ⟨.of_store run address, .of_store pos (runs_of_ok run address)⟩

end

/-- Settles O18: every load is the whole load of its size, sign or zero extended. -/
theorem alignedLoads : Obligations.AlignedLoads := by
  intro s base rt off
  exact ⟨.of_pieces rfl (split_iType ..), .of_pieces rfl (split_iType ..), .of_pieces rfl (split_iType ..),
    .of_pieces rfl (split_iType ..), .of_pieces rfl (split_iType ..), .of_pieces rfl (split_iType ..),
    .of_pieces rfl (split_iType ..),
    loads_of_run (by decide) rfl fun _ _ => rfl,
    loads_of_run (by decide) rfl (s.loadInt_zeroExtended · · 1),
    loads_of_run (by decide) rfl fun _ _ => rfl,
    loads_of_run (by decide) rfl (s.loadInt_zeroExtended · · 2),
    loads_of_run (by decide) rfl fun _ _ => rfl,
    .of_bind rfl fun run => loads_of_run (by decide) run (s.loadInt_zeroExtended · · 4),
    .of_bind rfl fun run => loads_of_run (by decide) run fun _ _ => rfl⟩

/-- Settles O20: every store is the whole store of its size. -/
theorem alignedStores : Obligations.AlignedStores := by
  intro s base rt off
  exact ⟨.of_pieces rfl (split_iType ..), .of_pieces rfl (split_iType ..), .of_pieces rfl (split_iType ..),
    .of_pieces rfl (split_iType ..), stores_of_run (by decide) rfl, stores_of_run (by decide) rfl,
    stores_of_run (by decide) rfl, .of_bind rfl (stores_of_run (by decide))⟩

/-! ## Partial loads and stores (R305 to R313) -/

theorem leftSpan_eq (e : Bool) (size : Nat) (va : Word) : leftSpan e size va =
    ⟨if e = true then 0 else va.toNat % size, if e = true then size - va.toNat % size else va.toNat % size + 1⟩ := by
  cases e <;> rfl

theorem rightSpan_eq (e : Bool) (size : Nat) (va : Word) : rightSpan e size va =
    ⟨if e = false then 0 else va.toNat % size, if e = false then size - va.toNat % size else va.toNat % size + 1⟩ := by
  cases e <;> rfl

/-- A span has a byte at least, towards either end of its datum. -/
theorem span_pos {size : Nat} (datum : 0 < size) (toEnd : Prop) [Decidable toEnd] (va : Word) :
    0 < if toEnd then size - va.toNat % size else va.toNat % size + 1 := by
  have inside := Nat.mod_lt va.toNat datum
  split <;> omega

/-- The bits of a number split at a power of 2. -/
theorem testBit_mul_add_mod (a b n i : Nat) :
    (a * 2 ^ n + b % 2 ^ n).testBit i = if i < n then b.testBit i else a.testBit (i - n) := by
  rw [Nat.mul_comm, Nat.testBit_two_pow_mul_add _ (Nat.mod_lt _ (Nat.two_pow_pos n))]
  split
  · next low => rw [Nat.testBit_mod_two_pow, decide_eq_true low, Bool.true_and]
  · rfl

theorem getLsbD_upperMask (n : Nat) {i : Nat} (bound : i < 64) :
    (BitVec.allOnes 64 <<< n).getLsbD i = !decide (i < n) := by
  rw [BitVec.getLsbD_shiftLeft, BitVec.getLsbD_allOnes, decide_eq_true bound, decide_eq_true (show i - n < 64 by omega),
    Bool.true_and, Bool.and_true]

theorem mergeLeft_eq_ofNat (size count : Nat) (loaded old : Word) : mergeLeft size count loaded old =
    BitVec.ofNat 64 (loaded.toNat * 256 ^ (size - count) + old.toNat % 256 ^ (size - count)) := by
  refine BitVec.eq_of_getLsbD_eq fun i bound => ?_
  rw [show 256 = 2 ^ 8 by rfl, ← Nat.pow_mul, BitVec.getLsbD_ofNat, testBit_mul_add_mod, mergeLeft, BitVec.getLsbD_or,
    BitVec.getLsbD_and, BitVec.getLsbD_not, getLsbD_upperMask _ bound, BitVec.getLsbD_shiftLeft, BitVec.testBit_toNat,
    BitVec.testBit_toNat]
  by_cases low : i < 8 * (size - count) <;> simp [bound, low]

theorem mergeRight_eq_ofNat {count : Nat} {loaded : Word} (old : Word) (narrow : loaded.toNat < 256 ^ count) :
    mergeRight count loaded old =
      BitVec.ofNat 64 (old.toNat / 256 ^ count * 256 ^ count + loaded.toNat % 256 ^ count) := by
  rw [show 256 = 2 ^ 8 by rfl, ← Nat.pow_mul] at narrow ⊢
  refine BitVec.eq_of_getLsbD_eq fun i bound => ?_
  rw [BitVec.getLsbD_ofNat, testBit_mul_add_mod, mergeRight, BitVec.getLsbD_or, BitVec.getLsbD_and,
    getLsbD_upperMask _ bound, Nat.testBit_div_two_pow, BitVec.testBit_toNat, BitVec.testBit_toNat]
  by_cases low : i < 8 * count
  · simp [bound, low]
  · have above : loaded.getLsbD i = false := BitVec.testBit_toNat loaded ▸
      Nat.testBit_eq_false_of_lt (Nat.lt_of_lt_of_le narrow (Nat.pow_le_pow_right (by decide) (by omega)))
    rw [above, Nat.sub_add_cancel (by omega)]
    simp [bound, low]

theorem lowWord_ofNat (x : Nat) : lowWord (BitVec.ofNat 64 x) = BitVec.ofNat 32 x :=
  BitVec.setWidth_ofNat_of_le (by decide) x

theorem mergeLwl_eq (count : Nat) (loaded old : Word) : mergeLwl count loaded old =
    (BitVec.ofNat 32 (loaded.toNat * 256 ^ (4 - count) + old.toNat % 256 ^ (4 - count))).signExtend 64 := by
  rw [mergeLwl, mergeLeft_eq_ofNat, lowWord_ofNat, sext32]

/-- The upper half that LWR leaves is the sign extension where it read the whole word, else that or the old one (R307). -/
theorem mergeLwr_cases {count : Nat} {loaded : Word} (signExtended : Bool) (old : Word)
    (narrow : loaded.toNat < 256 ^ count) :
    let word := BitVec.ofNat 32 (old.toNat / 256 ^ count * 256 ^ count + loaded.toNat % 256 ^ count)
    (count = 4 → mergeLwr signExtended count loaded old = word.signExtend 64) ∧
      (count ≠ 4 → mergeLwr signExtended count loaded old = word.signExtend 64 ∨
        mergeLwr signExtended count loaded old = old.extractLsb' 32 32 ++ word) := by
  intro word
  have low : lowWord (mergeRight count loaded old) = word := by rw [mergeRight_eq_ofNat old narrow, lowWord_ofNat]
  rw [mergeLwr, low]
  refine ⟨fun whole => if_pos whole, fun part => ?_⟩
  rw [if_neg part]
  cases signExtended
  · exact .inr rfl
  · exact .inl rfl

section
variable {i : Instr} {s : State} {span : Bool → Nat → Word → Span} {size : Nat} {rt base : Reg} {off va value : Word}
  {t : Translation} {back count : Nat}

section
variable {merge : Nat → Word → Word → Word} (run : exec i s = (s.loadPart span size merge rt base off).finish s)
  (address : s.dataAddress .load 1 base off = .ok (va, t)) (touched : span s.bigEndian size va = ⟨back, count⟩)
include run address touched

theorem runs_loadPart :
    let access := s.loadInt (va - BitVec.ofNat 64 back) { t with pa := t.pa - BitVec.ofNat 40 back } count
    exec i s = .next (access.2.setReg rt (merge count access.1 (s.reg rt))).advance := by
  rw [run, State.loadPart, address, Access.bind_ok, touched]
  rfl

/-- A partial load, by the value its register gets. -/
theorem loadsPart_of_run (merged : merge count
      (s.loadInt (va - BitVec.ofNat 64 back) { t with pa := t.pa - BitVec.ofNat 40 back } count).1 (s.reg rt) = value) :
    LoadsReg i s rt value := by
  have completes := runs_loadPart run address touched
  dsimp only at completes
  rw [merged] at completes
  exact .of_exec completes (s.loadInt_cacheOnly ..)

theorem leavesPart_of_run (pos : 0 < count) : Leaves i s
    (LoadedCaches s (va - BitVec.ofNat 64 back) { t with pa := t.pa - BitVec.ofNat 40 back } count) :=
  .of_load pos (runs_loadPart run address touched)

end

/-- A partial store, by the value whose low bytes it stores. -/
theorem storesPart_of_run {part : Nat → Word → Word} (run : exec i s = (s.storePart span size part rt base off).finish s)
    (address : s.dataAddress .store 1 base off = .ok (va, t)) (touched : span s.bigEndian size va = ⟨back, count⟩)
    (pos : 0 < count) (stored : part count (s.reg rt) = value) :
    StoresBytes i s (t.pa - BitVec.ofNat 40 back).toNat (storedBytes s.bigEndian count value) [] ∧
      Leaves i s (StoredCaches s (va - BitVec.ofNat 64 back) { t with pa := t.pa - BitVec.ofNat 40 back }
        (storedBytes s.bigEndian count value)) := by
  have completes : exec i s = .next (s.storeInt (va - BitVec.ofNat 64 back)
      { t with pa := t.pa - BitVec.ofNat 40 back } count value).advance := by
    rw [run, State.storePart, address, Access.bind_ok, touched, ← stored]
    rfl
  exact ⟨.of_exec completes (s.storeInt_cacheOnly ..), .of_store pos completes⟩

end

/-- Settles O22: each reads the span of its end of the datum, and its merge is what the statement says of the register. -/
theorem partialLoads : Obligations.PartialLoads := by
  intro s base rt off
  refine ⟨.of_pieces rfl (split_iType ..), .of_pieces rfl (split_iType ..), .of_pieces rfl (split_iType ..),
    .of_pieces rfl (split_iType ..), fun va t address => ?_, fun va t address => ?_,
    .of_bind rfl fun run va t address => ?_, .of_bind rfl fun run va t address => ?_⟩
  · have touched := leftSpan_eq s.bigEndian 4 va
    exact ⟨leavesPart_of_run rfl address touched (span_pos (by decide) _ va),
      loadsPart_of_run rfl address touched (mergeLwl_eq ..)⟩
  · have touched := rightSpan_eq s.bigEndian 4 va
    obtain ⟨whole, part⟩ := mergeLwr_cases (Config.freeBool .lwrUpper s.draws) (s.reg rt) (s.loadInt_lt ..)
    exact ⟨leavesPart_of_run rfl address touched (span_pos (by decide) _ va),
      fun four => loadsPart_of_run rfl address touched (whole four),
      fun fewer => (part fewer).imp (loadsPart_of_run rfl address touched) (loadsPart_of_run rfl address touched)⟩
  · have touched := leftSpan_eq s.bigEndian 8 va
    exact ⟨leavesPart_of_run run address touched (span_pos (by decide) _ va),
      loadsPart_of_run run address touched (mergeLeft_eq_ofNat ..)⟩
  · have touched := rightSpan_eq s.bigEndian 8 va
    exact ⟨leavesPart_of_run run address touched (span_pos (by decide) _ va),
      loadsPart_of_run run address touched (mergeRight_eq_ofNat _ (s.loadInt_lt ..))⟩

/-- The upper bytes of a value are what a division leaves of it. -/
theorem ushiftRight_bytes (v : Word) (n : Nat) : v >>> (8 * n) = BitVec.ofNat 64 (v.toNat / 256 ^ n) := by
  rw [ushiftRight_eq_ofNat, Nat.pow_mul]

theorem partSwl_eq (count : Nat) (v : Word) :
    partSwl count v = BitVec.ofNat 64 ((v.setWidth 32).toNat / 256 ^ (4 - count)) := by
  rw [partSwl, ushiftRight_bytes, BitVec.toNat_setWidth_of_le (by decide), lowWord]

/-- Settles O23: each stores to the span of its end of the datum, the left forms the upper bytes. -/
theorem partialStores : Obligations.PartialStores := by
  intro s base rt off
  exact ⟨.of_pieces rfl (split_iType ..), .of_pieces rfl (split_iType ..), .of_pieces rfl (split_iType ..),
    .of_pieces rfl (split_iType ..),
    fun va t address => storesPart_of_run rfl address (leftSpan_eq ..) (span_pos (by decide) _ va) (partSwl_eq ..),
    fun va t address => storesPart_of_run rfl address (rightSpan_eq ..) (span_pos (by decide) _ va) rfl,
    .of_bind rfl fun run va t address =>
      storesPart_of_run run address (leftSpan_eq ..) (span_pos (by decide) _ va) (ushiftRight_bytes ..),
    .of_bind rfl fun run va t address =>
      storesPart_of_run run address (rightSpan_eq ..) (span_pos (by decide) _ va) rfl⟩

/-! ## Linked loads and conditional stores (R320 to R324) -/

theorem Translation.cachable_iff (t : Translation) : t.cachable = true ↔ t.c = 3 ∨ t.c = 4 ∨ t.c = 5 := by
  simp [Translation.cachable, or_assoc]

theorem Translation.uncached {t : Translation} (not3 : t.c ≠ 3) (not4 : t.c ≠ 4) (not5 : t.c ≠ 5) : t.cachable = false := by
  rw [Bool.eq_false_iff, Ne, t.cachable_iff]
  tauto

/-! ### What a completed access keeps -/

section
variable {s u : State} {parts : List Part}

theorem KeepsAllBut.mono {more : List Part} (kept : KeepsAllBut s u parts) (sub : parts ⊆ more) : KeepsAllBut s u more :=
  fun p other => kept p fun listed => other (sub listed)

theorem CacheOnly.keeps (h : CacheOnly s u) : KeepsAllBut s u [.llbit, .dcache, .scache] := by
  obtain ⟨d, c, b, rfl, -⟩ := h
  intro p other
  cases p <;> simp_all [Keeps, State.reg]

theorem CacheOnly.keepsStored {pa : PAddr} {bs : List Byte} (h : CacheOnly (s.writeMemory pa bs) u) :
    KeepsAllBut s u [.memory, .byteOrder, .llbit, .dcache, .scache] := by
  obtain ⟨d, c, b, rfl, -⟩ := h
  intro p other
  cases p <;> simp_all [Keeps, State.reg]

/-- Writing a register and completing changes no other part. -/
theorem KeepsAllBut.setReg_advance (kept : KeepsAllBut s u parts) (rt : Reg) (v : Word) :
    KeepsAllBut s (u.setReg rt v).advance (.regs :: parts) := by
  intro p other
  have same := kept p fun listed => other (.tail _ listed)
  cases p <;> simp_all [Keeps]

/-- Setting LLbit and recording the access changes no other part. -/
theorem KeepsAllBut.link (kept : KeepsAllBut s u parts) (l : Option LinkedAccess) :
    KeepsAllBut s { u with llbit := true, linked := l } (.llbit :: .linked :: parts) := by
  intro p other
  have same := kept p fun listed => other (.tail _ (.tail _ listed))
  cases p <;> simp_all [Keeps, State.reg]

end

theorem CacheOnly.npc {s u : State} (h : CacheOnly s u) : u.npc = s.npc := by
  obtain ⟨d, c, b, rfl, -⟩ := h
  rfl

/-- The register write that completes an access: its value, and every other register as before the access. -/
theorem keepsRegsBut_setReg_advance {s u : State} (same : ∀ r, u.reg r = s.reg r) (rt : Reg) (v : Word) :
    (u.setReg rt v).advance.reg rt = (if rt = 0 then 0 else v) ∧ KeepsRegsBut s (u.setReg rt v).advance rt :=
  ⟨u.reg_setReg_same rt v, fun q other => (u.reg_setReg_other v other).trans (same q)⟩

/-! ### The instructions -/

section
variable {i : Instr} {s : State} {n : Nat} {rt base : Reg} {off : Word} (pos : 0 < n)
include pos

/-- A load that links is refused from an uncached address, and else completes as the load it is, with LLbit set and its access
recorded (R320, R321, D23). -/
theorem links_of_run {extend : Word → Word} {value : Word → Translation → Word}
    (run : exec i s = (s.loadLinked n extend rt base off).finish s)
    (extended : ∀ va t, extend (s.loadInt va t n).1 = value va t) (va : Word) (t : Translation)
    (address : s.dataAddress .load n base off = .ok (va, t)) :
    (t.c ≠ 3 → t.c ≠ 4 → t.c ≠ 5 → exec i s = .refused .uncachedLink) ∧
    (t.c = 3 ∨ t.c = 4 ∨ t.c = 5 → ∃ u, exec i s = .next u ∧ Advances s u ∧
      u.reg rt = (if rt = 0 then 0 else value va t) ∧ KeepsRegsBut s u rt ∧
      u.llbit = true ∧ u.linked = some (linkedAccess (va, t) n) ∧
      LoadedCaches s va t n u ∧ KeepsAllBut s u [.regs, .llbit, .linked, .dcache, .scache]) := by
  rw [State.loadLinked, address, Access.bind_ok] at run
  rw [← t.cachable_iff, ← extended]
  constructor
  · intro not3 not4 not5
    rw [run, t.uncached not3 not4 not5]
    rfl
  · intro cachable
    rw [cachable, Bool.not_true, if_neg Bool.false_ne_true] at run
    have touches := s.loadInt_cacheOnly va t n
    have kept := touches.keeps
    obtain ⟨value, others⟩ := keepsRegsBut_setReg_advance (kept .regs (by decide)) rt (extend (s.loadInt va t n).1)
    refine ⟨_, run, Advances.of_eq ((State.setReg_npc ..).trans touches.npc), value, others, rfl, rfl, ?_,
      ((kept.setReg_advance rt _).link _).mono (by decide)⟩
    exact (s.afterLoad_caches va t pos).congr (State.setReg_dcache ..) (State.setReg_scache ..)

/-- A conditional store is refused at an uncached address and where its access is not the one last linked; else it gives 0 and
changes nothing, as it must with LLbit clear, or stores and gives 1 (R322 to R324, D23). -/
theorem storesConditionally_of_run (run : exec i s = (s.storeConditional n rt base off).finish s)
    (va : Word) (t : Translation) (address : s.dataAddress .store n base off = .ok (va, t)) :
    (t.c ≠ 3 → t.c ≠ 4 → t.c ≠ 5 → exec i s = .refused .uncachedLink) ∧
    (t.c = 3 ∨ t.c = 4 ∨ t.c = 5 → s.linked ≠ some (linkedAccess (va, t) n) → exec i s = .refused .unmatchedConditional) ∧
    (t.c = 3 ∨ t.c = 4 ∨ t.c = 5 → s.linked = some (linkedAccess (va, t) n) → s.llbit = false → WritesReg i s rt 0) ∧
    (t.c = 3 ∨ t.c = 4 ∨ t.c = 5 → s.linked = some (linkedAccess (va, t) n) → WritesReg i s rt 0 ∨
      ∃ u, exec i s = .next u ∧ Advances s u ∧ u.reg rt = (if rt = 0 then 0 else 1) ∧ KeepsRegsBut s u rt ∧
        StoredAt s u t.pa.toNat (storedBytes s.bigEndian n (s.reg rt)) ∧ KeepsLinkBut s u ∧
        StoredCaches s va t (storedBytes s.bigEndian n (s.reg rt)) u ∧
        KeepsAllBut s u [.regs, .memory, .byteOrder, .llbit, .dcache, .scache]) := by
  rw [State.storeConditional, address, Access.bind_ok] at run
  rw [← t.cachable_iff]
  refine ⟨fun not3 not4 not5 => ?_, fun cachable other => ?_, fun cachable linked clear => ?_, fun cachable linked => ?_⟩
  · rw [run, t.uncached not3 not4 not5]
    rfl
  · rw [run, cachable, Bool.not_true, if_neg Bool.false_ne_true, if_pos other]
    rfl
  · rw [cachable, Bool.not_true, if_neg Bool.false_ne_true, if_neg (not_not_intro linked), clear, Bool.false_and,
      if_neg Bool.false_ne_true] at run
    exact .of_exec run
  · rw [cachable, Bool.not_true, if_neg Bool.false_ne_true, if_neg (not_not_intro linked)] at run
    split at run
    · have touches := s.storeInt_cacheOnly va t n (s.reg rt)
      have kept := touches.keepsStored
      obtain ⟨value, others⟩ := keepsRegsBut_setReg_advance (kept .regs (by decide)) rt 1
      have stored := touches.storedAt
      have link := touches.link
      have caches := s.storeBytes_caches va t (bs := storedBytes s.bigEndian n (s.reg rt)) (by rwa [storedBytes_length])
      refine .inr ⟨_, run, Advances.of_eq ((State.setReg_npc ..).trans touches.npc), value, others, ?_, ?_, ?_,
        (kept.setReg_advance rt _).mono (by decide)⟩
      · simpa [StoredAt] using stored
      · simpa [KeepsLinkBut, Resynonymed] using link
      · exact caches.congr (State.setReg_dcache ..) (State.setReg_scache ..) (State.setReg_mem ..)
          (State.setReg_physMap ..)
    · exact .inl (.of_exec run)

end

/-- Settles O24: behind its guard each is the linked load or the conditional store of its size. -/
theorem linkedLoadsAndConditionalStores : Obligations.LinkedLoadsAndConditionalStores := by
  constructor
  · intro s base rt off
    exact ⟨.of_pieces rfl (split_iType ..), .of_pieces rfl (split_iType ..),
      links_of_run (by decide) rfl fun _ _ => rfl,
      .of_bind rfl fun run => links_of_run (by decide) run fun _ _ => rfl⟩
  · intro s base rt off
    exact ⟨.of_pieces rfl (split_iType ..), .of_pieces rfl (split_iType ..),
      storesConditionally_of_run (by decide) rfl, .of_bind rfl (storesConditionally_of_run (by decide))⟩

/-! ## LLbit over every instruction (R324) -/

/-- A part of an instruction that leaves LLbit as it was. -/
def Access.KeepsLlbit (s : State) (x : Access State) : Prop := ∀ t, x = .ok t → t.llbit = s.llbit

theorem Access.KeepsLlbit.ok {s t : State} (same : t.llbit = s.llbit) : (Access.ok t).KeepsLlbit s := by
  rintro _ ⟨⟩
  exact same

theorem Access.KeepsLlbit.refuse (s : State) (r : Refusal) : (Access.refuse r).KeepsLlbit s := fun _ given => by cases given

theorem Access.KeepsLlbit.fault (s : State) (f : Fault) : (Access.fault f).KeepsLlbit s := fun _ given => by cases given

theorem Access.KeepsLlbit.bind {s : State} {α : Type} {x : Access α} {f : α → Access State}
    (h : ∀ a, (f a).KeepsLlbit s) : (x.bind f).KeepsLlbit s := by
  intro t given
  obtain ⟨a, -, given⟩ := Access.bind_eq_ok.mp given
  exact h a t given

/-- An exception leaves LLbit as it was. -/
theorem KeepsLinkBut.of_finish {s t : State} {x : Access State} (given : x.finish s = .next t) (h : x.KeepsLlbit s) :
    KeepsLinkBut s t := by
  obtain completes | ⟨e, -, rfl⟩ := Access.finish_eq_next given
  · exact .inl (h t completes)
  · exact .inl rfl

theorem Effect.keepsLink {s t : State} : Effect s t → KeepsLinkBut s t
  | .ordinary h => h.link
  | .exception _ _ => .inl rfl

/-- The instructions that may change LLbit otherwise than by a repair of the streaming cache. -/
def writesLlbit : Instr → Bool
  | .ll _ _ _ | .lld _ _ _ | .eret => true
  | _ => false

theorem execSsnop_keepsLink {s t : State} (given : execSsnop s = .next t) : KeepsLinkBut s t :=
  .of_finish given (.ok rfl)

theorem execDmtc0_keepsLink {rt rd : Reg} {s t : State} (given : execDmtc0 rt rd s = .next t) : KeepsLinkBut s t := by
  refine .of_finish given (.bind fun _ => ?_)
  split
  · exact .refuse s _
  · exact .ok rfl

theorem execTlbp_keepsLink {s t : State} (given : execTlbp s = .next t) : KeepsLinkBut s t := by
  refine .of_finish given (.bind fun _ => .bind fun _ => ?_)
  split
  · exact .ok rfl
  · exact .ok rfl
  · exact .fault s _

theorem execTlbr_keepsLink {s t : State} (given : execTlbr s = .next t) : KeepsLinkBut s t :=
  .of_finish given (.bind fun _ => .bind fun _ => .bind fun _ => .ok rfl)

theorem execTlbw_keepsLink {s t : State} (given : execTlbw s = .next t) : KeepsLinkBut s t :=
  .of_finish given (.bind fun _ => .bind fun _ => .bind fun _ => .ok rfl)

theorem execDctr_keepsLink {s t : State} (given : execDctr s = .next t) : KeepsLinkBut s t :=
  .of_finish given (.bind fun _ => .ok rfl)

theorem execDctw_keepsLink {s t : State} (given : execDctw s = .next t) : KeepsLinkBut s t :=
  .of_finish given (.bind fun _ => .ok rfl)

/-- Every instruction but LL, LLD and ERET leaves LLbit as it was, or its repair of the streaming cache clears it. -/
theorem exec_keepsLink {i : Instr} {s t : State} (other : writesLlbit i = false) (given : exec i s = .next t) :
    KeepsLinkBut s t := by
  cases kind : isOrdinary i with
  | true => exact (exec_effect kind given).keepsLink
  | false =>
    cases i with
    | ll | lld | eret => nomatch other
    | ssnop => exact execSsnop_keepsLink given
    | dmtc0 => exact execDmtc0_keepsLink given
    | tlbp => exact execTlbp_keepsLink given
    | tlbr => exact execTlbr_keepsLink given
    | tlbw => exact execTlbw_keepsLink given
    | dctr => exact execDctr_keepsLink given
    | dctw => exact execDctw_keepsLink given
    | _ => nomatch kind

theorem State.loadLinked_llbit {s t : State} {n : Nat} {extend : Word → Word} {rt base : Reg} {off : Word}
    (given : s.loadLinked n extend rt base off = .ok t) : t.llbit = true := by
  obtain ⟨a, -, -, rfl⟩ := State.loadLinked_eq_ok.mp given
  rfl

/-- A load that links sets LLbit, or takes an exception, which leaves it as it was. -/
theorem llbit_of_linkedLoad {s t : State} {x : Access State} (given : x.finish s = .next t)
    (links : ∀ u, x = .ok u → u.llbit = true) : s.llbit = true → t.llbit = true := by
  obtain completes | ⟨e, -, rfl⟩ := Access.finish_eq_next given
  · exact fun _ => links t completes
  · exact id

/-- ERET clears LLbit, or takes an exception, which leaves it as it was. -/
theorem execEret_llbit {s t : State} (given : execEret s = .next t) : t.llbit = true → s.llbit = true := by
  obtain completes | ⟨e, -, rfl⟩ := Access.finish_eq_next given
  · obtain ⟨_, -, completes⟩ := Access.bind_eq_ok.mp completes
    obtain ⟨_, -, completes⟩ := Access.bind_eq_ok.mp completes
    cases completes
    exact nofun
  · exact id

/-- Settles O48: LL, LLD and ERET one by one, and for every other instruction that it keeps LLbit but for a repair. -/
theorem linkBitSetOnlyByLinkedLoads : Obligations.LinkBitSetOnlyByLinkedLoads := by
  intro i s t given
  cases writes : writesLlbit i with
  | false =>
    obtain same | ⟨cleared, repaired⟩ := exec_keepsLink writes given
    · exact ⟨fun now => .inl (same ▸ now), fun before now => absurd (same.trans before) (Bool.eq_false_iff.mp now)⟩
    · exact ⟨fun now => absurd now (Bool.eq_false_iff.mp cleared), fun _ _ => .inr repaired⟩
  | true =>
    cases i with
    | ll base rt off =>
      have kept := llbit_of_linkedLoad given fun _ => State.loadLinked_llbit
      exact ⟨fun _ => .inr (.inl ⟨base, rt, off, rfl⟩), fun before now => absurd (kept before) (Bool.eq_false_iff.mp now)⟩
    | lld base rt off =>
      have kept := llbit_of_linkedLoad given fun u completes => by
        obtain ⟨_, -, completes⟩ := Access.bind_eq_ok.mp completes
        exact State.loadLinked_llbit completes
      exact ⟨fun _ => .inr (.inr ⟨base, rt, off, rfl⟩), fun before now => absurd (kept before) (Bool.eq_false_iff.mp now)⟩
    | eret => exact ⟨fun now => .inl (execEret_llbit given now), fun _ _ => .inl rfl⟩
    | _ => nomatch writes

end Sys2Proof.Machine

/-! PROOFS. Jumps and branches (43_branch_jump.md): targets, conditions, links and delay slots, and the step that runs the
instruction it fetches. -/

namespace Sys2Proof.Machine
open Sys2Proof

/-! ## Targets -/

/-- A branch target as an integer offset from the delay slot (R339). -/
theorem branchTarget_eq_ofInt (pc : Word) (off : BitVec 16) :
    branchTarget pc off = pc + 4 + BitVec.ofInt 64 (4 * off.toInt) := by
  rw [branchTarget, BitVec.signExtend, BitVec.toInt_append_zero]
  rfl

/-- A jump target as a place in the 256 MB segment of the delay slot (R339). -/
theorem jumpTarget_eq_ofNat (pc : Word) (target : BitVec 26) :
    jumpTarget pc target = BitVec.ofNat 64 ((pc + 4).toNat / 2 ^ 28 * 2 ^ 28 + 4 * target.toNat) := by
  apply BitVec.eq_of_toNat_eq
  have segment : (pc + 4).toNat / 2 ^ 28 < 2 ^ 36 := by omega
  have place : target.toNat < 2 ^ 26 := target.isLt
  rw [jumpTarget, BitVec.toNat_append, BitVec.toNat_append, ← Nat.shiftLeft_add_eq_or_of_lt (by simp),
    ← Nat.shiftLeft_add_eq_or_of_lt place, toNat_extractLsb', BitVec.toNat_ofNat, BitVec.toNat_ofNat,
    Nat.mod_eq_of_lt segment, Nat.shiftLeft_eq, Nat.shiftLeft_eq]
  omega

/-! ## Conditions -/

theorem ltz_iff (v : Word) : v.msb = true ↔ v.toInt < 0 := by
  rw [BitVec.msb_eq_toInt, decide_eq_true_iff]

theorem gez_iff (v : Word) : (!v.msb) = true ↔ 0 ≤ v.toInt := by
  rw [Bool.not_eq_true', ← Bool.not_eq_true, ltz_iff, Int.not_lt]

/-- Bit 63 set or all bits zero is at most zero as a signed number (R348). -/
theorem lez_iff (v : Word) : lez v = true ↔ v.toInt ≤ 0 := by
  rw [lez, Bool.or_eq_true, ltz_iff, beq_iff_eq, ← BitVec.toInt_inj]
  exact Int.le_iff_lt_or_eq.symm

theorem gtz_iff (v : Word) : (!lez v) = true ↔ 0 < v.toInt := by
  rw [Bool.not_eq_true', ← Bool.not_eq_true, lez_iff, Int.not_le]

/-! ## Guards -/

theorem needNotInSlot_refuse {s : State} (slot : s.inSlot = true) : needNotInSlot s = .refuse .transferInDelaySlot := by
  rw [needNotInSlot, if_pos slot]

section
variable {i : Instr} {s : State}

/-- Outside a delay slot a transfer of control does what stands behind its guard. -/
theorem run_of_not_inSlot {x : Access State} (free : s.inSlot = false)
    (run : exec i s = ((needNotInSlot s).bind fun _ => x).finish s) : exec i s = x.finish s := by
  rwa [needNotInSlot_ok free] at run

/-- In a delay slot a transfer of control is refused (R340). -/
theorem refused_of_inSlot {f : Unit → Access State} (slot : s.inSlot = true)
    (run : exec i s = ((needNotInSlot s).bind f).finish s) : exec i s = .refused .transferInDelaySlot := by
  rwa [needNotInSlot_refuse slot] at run

/-- A transfer that links does what stands behind its guards when its link register is not its source. For a branch that
register is r31, and `needLinkSource` is this guard by definition. -/
theorem run_of_distinct {rs rd : Reg} {x : Access State} (free : s.inSlot = false) (distinct : rs ≠ rd)
    (run : exec i s = ((needNotInSlot s).bind fun _ => (needDistinct rs rd).bind fun _ => x).finish s) :
    exec i s = x.finish s := by
  have behind := run_of_not_inSlot free run
  rwa [needDistinct, if_neg distinct] at behind

/-- A transfer whose link register is its source is refused (U23, log 49). -/
theorem refused_of_same {rs rd : Reg} {f : Unit → Access State} (free : s.inSlot = false) (same : rs = rd)
    (run : exec i s = ((needNotInSlot s).bind fun _ => (needDistinct rs rd).bind f).finish s) :
    exec i s = .refused .linkSourceRegister := by
  have behind := run_of_not_inSlot free run
  rwa [needDistinct, if_pos same] at behind

/-! ## How a branch completes -/

section
variable {test : Bool} {holds : Prop} {off : BitVec 16} {r : Reg} (tests : test = true ↔ holds)
include tests

/-- What the test of a branch finds decides which of two states comes next. -/
theorem next_of_test {onTrue onFalse : State}
    (run : exec i s = (Access.ok (if test then onTrue else onFalse)).finish s) :
    (holds → exec i s = .next onTrue) ∧ (¬holds → exec i s = .next onFalse) := by
  rw [← tests]
  cases test with
  | true => exact ⟨fun _ => run, absurd rfl⟩
  | false => exact ⟨nofun, fun _ => run⟩

theorem Branches.of_run (run : exec i s = (s.branchIf test (branchTarget s.pc off)).finish s) :
    Branches i s holds (s.pc + 4 + BitVec.ofInt 64 (4 * off.toInt)) none := by
  rw [branchTarget_eq_ofInt] at run
  obtain ⟨yes, no⟩ := next_of_test tests run
  exact ⟨fun taken => .of_exec (yes taken), fun untaken => .of_exec (no untaken)⟩

theorem Branches.of_run_link (run : exec i s = ((s.link r).branchIf test (branchTarget s.pc off)).finish s) :
    Branches i s holds (s.pc + 4 + BitVec.ofInt 64 (4 * off.toInt)) (some r) := by
  rw [branchTarget_eq_ofInt] at run
  obtain ⟨yes, no⟩ := next_of_test tests run
  exact ⟨fun taken => .of_exec_link (yes taken), fun untaken => .of_exec_link (no untaken)⟩

theorem BranchesLikely.of_run (run : exec i s = (s.branchLikelyIf test (branchTarget s.pc off)).finish s) :
    BranchesLikely i s holds (s.pc + 4 + BitVec.ofInt 64 (4 * off.toInt)) none := by
  rw [branchTarget_eq_ofInt] at run
  obtain ⟨yes, no⟩ := next_of_test tests run
  exact ⟨fun taken => .of_exec (yes taken), fun untaken => .of_exec (no untaken)⟩

theorem BranchesLikely.of_run_link
    (run : exec i s = ((s.link r).branchLikelyIf test (branchTarget s.pc off)).finish s) :
    BranchesLikely i s holds (s.pc + 4 + BitVec.ofInt 64 (4 * off.toInt)) (some r) := by
  rw [branchTarget_eq_ofInt] at run
  obtain ⟨yes, no⟩ := next_of_test tests run
  exact ⟨fun taken => .of_exec_link (yes taken), fun untaken => .of_exec_link (no untaken)⟩

end

end

/-! ## The instructions -/

/-- Settles O30: behind the guards each jump completes at its target, and each branch that links by the sign of its source. -/
theorem jumpsAndLinks : Obligations.JumpsAndLinks := by
  constructor
  · intro s rs rd target
    rw [← jumpTarget_eq_ofNat]
    exact ⟨.of_pieces rfl (split_jType ..), .of_pieces rfl (split_jType ..), .of_pieces rfl (split_rType ..),
      .of_pieces rfl (split_rType ..), fun free => .of_exec (run_of_not_inSlot (x := .ok _) free rfl),
      fun free => .of_exec_link (run_of_not_inSlot (x := .ok _) free rfl),
      fun free => .of_exec (run_of_not_inSlot (x := .ok _) free rfl),
      fun free distinct => .of_exec_link (run_of_distinct (x := .ok _) free distinct rfl),
      fun free same => refused_of_same free same rfl⟩
  · intro s rs off
    exact ⟨.of_pieces rfl (split_iType ..),
      fun free source => .of_run_link (ltz_iff _) (run_of_distinct free source rfl),
      fun free source => refused_of_same free source rfl,
      .of_pieces rfl (split_iType ..),
      fun free source => .of_run_link (gez_iff _) (run_of_distinct free source rfl),
      fun free source => refused_of_same free source rfl,
      .of_pieces rfl (split_iType ..),
      fun free source => .of_run_link (ltz_iff _) (run_of_distinct free source rfl),
      fun free source => refused_of_same free source rfl,
      .of_pieces rfl (split_iType ..),
      fun free source => .of_run_link (gez_iff _) (run_of_distinct free source rfl),
      fun free source => refused_of_same free source rfl⟩

/-- Settles O31: outside a delay slot each branch is decided by its condition, which is the signed comparison. -/
theorem conditionalBranches : Obligations.ConditionalBranches := by
  constructor
  · intro s rs rt off
    exact ⟨.of_pieces rfl (split_iType ..), fun free => .of_run beq_iff_eq (run_of_not_inSlot free rfl),
      .of_pieces rfl (split_iType ..), fun free => .of_run bne_iff_ne (run_of_not_inSlot free rfl),
      .of_pieces rfl (split_iType ..), fun free => .of_run (lez_iff _) (run_of_not_inSlot free rfl),
      .of_pieces rfl (split_iType ..), fun free => .of_run (gtz_iff _) (run_of_not_inSlot free rfl),
      .of_pieces rfl (split_iType ..), fun free => .of_run (ltz_iff _) (run_of_not_inSlot free rfl),
      .of_pieces rfl (split_iType ..), fun free => .of_run (gez_iff _) (run_of_not_inSlot free rfl)⟩
  · intro s rs rt off
    exact ⟨.of_pieces rfl (split_iType ..), fun free => .of_run beq_iff_eq (run_of_not_inSlot free rfl),
      .of_pieces rfl (split_iType ..), fun free => .of_run bne_iff_ne (run_of_not_inSlot free rfl),
      .of_pieces rfl (split_iType ..), fun free => .of_run (lez_iff _) (run_of_not_inSlot free rfl),
      .of_pieces rfl (split_iType ..), fun free => .of_run (gtz_iff _) (run_of_not_inSlot free rfl),
      .of_pieces rfl (split_iType ..), fun free => .of_run (ltz_iff _) (run_of_not_inSlot free rfl),
      .of_pieces rfl (split_iType ..), fun free => .of_run (gez_iff _) (run_of_not_inSlot free rfl)⟩

/-- Settles O32: every transfer starts with the guard that refuses it in a delay slot, ERET after that of coprocessor 0. -/
theorem transferInDelaySlotRefused : Obligations.TransferInDelaySlotRefused := by
  intro s rs rt off target slot
  refine ⟨refused_of_inSlot slot rfl, refused_of_inSlot slot rfl, refused_of_inSlot slot rfl, refused_of_inSlot slot rfl,
    refused_of_inSlot slot rfl, refused_of_inSlot slot rfl, refused_of_inSlot slot rfl, refused_of_inSlot slot rfl,
    refused_of_inSlot slot rfl, refused_of_inSlot slot rfl, refused_of_inSlot slot rfl, refused_of_inSlot slot rfl,
    refused_of_inSlot slot rfl, refused_of_inSlot slot rfl, refused_of_inSlot slot rfl, refused_of_inSlot slot rfl,
    refused_of_inSlot slot rfl, refused_of_inSlot slot rfl, refused_of_inSlot slot rfl, refused_of_inSlot slot rfl,
    fun usable => ?_⟩
  have run : exec .eret s = ((needCop0 s).bind fun _ => (needNotInSlot s).bind fun _ =>
    .ok (returnFromException s)).finish s := rfl
  rw [needCop0_ok usable] at run
  exact refused_of_inSlot slot run

/-! ## The step -/

/-- With no NMI and no interrupt taken, the step runs the fetched word with the next draw of free values. -/
theorem step_of_fetch_ok {s u : State} {w : IWord} (nmi : s.boundary.nmiTaken = false)
    (interrupt : s.boundary.interrupted = false) (fetched : s.boundary.fetch = .ok (w, u)) :
    step s = runWord w u.draw := by
  rw [step, stepFrom, nmi, if_neg Bool.false_ne_true, interrupt, if_neg Bool.false_ne_true, fetchAndRun, fetched]

theorem runWord_of_decodes {w : IWord} {i : Instr} (decoded : decodeWord w = .ok i) (s : State) :
    runWord w s = runInstr i s := by
  rw [runWord, decoded]

/-- An instruction that keeps the distances of the hazard table is executed (R660). -/
theorem runInstr_of_no_violation {i : Instr} {s : State} (kept : s.hazardViolation i = false) :
    runInstr i s = exec i (s.recordHazards i) := by
  rw [runInstr, kept, Bool.false_and, if_neg Bool.false_ne_true]

/-- Settles O5: the step fetches, decodes and executes. -/
theorem stepRunsDecodedInstruction : Obligations.StepRunsDecodedInstruction := by
  intro s u w i nmi interrupt fetched decoded kept
  calc step s = runWord w u.draw := step_of_fetch_ok nmi interrupt fetched
    _ = runInstr i u.draw := runWord_of_decodes decoded _
    _ = exec i (u.draw.recordHazards i) := runInstr_of_no_violation kept

end Sys2Proof.Machine

/-! PROOFS. Trap instructions, SYSCALL and BREAK (44_trap_sys.md). -/

namespace Sys2Proof.Machine
open Sys2Proof

/-! ## What an exception entry keeps -/

/-- Besides the program counter an entry changes only coprocessor 0, the FPI that the CPU sees, and the model's records (R580,
logs 29, 46, 47). -/
theorem takeException_keeps (e : Exc) (s : State) : KeepsAllBut s (takeException e s) [.cp0, .fpiSeen, .hazards, .late] := by
  intro p outside
  cases p with
  | cp0 | fpiSeen | hazards | late => simp at outside
  | regs => exact fun _ => rfl
  | memory => exact fun _ => rfl
  | _ => rfl

/-- The CPU sees FPI with the precise floating-point interrupt, and with no other exception (log 29). -/
theorem takeException_fpiSeen (e : Exc) (s : State) :
    (takeException e s).fpiSeen = if e = .floatingPoint then true else s.fpiSeen := rfl

/-- Of all exceptions only the floating-point interrupt changes more than coprocessor 0 and the model's records. -/
theorem takeException_keeps_of_ne {e : Exc} (s : State) (other : e ≠ .floatingPoint) :
    KeepsAllBut s (takeException e s) [.cp0, .hazards, .late] := by
  intro p outside
  by_cases fpi : p = .fpiSeen
  · subst fpi
    rw [Keeps, takeException_fpiSeen, if_neg other]
  · exact takeException_keeps e s p (by simp_all)

/-! ## How these instructions complete -/

section
variable {i : Instr} {s : State}

/-- A trap instruction, by the condition that it tests (R394). -/
theorem traps_of_run {test : Bool} {holds : Prop} (tests : test = true ↔ holds)
    (run : exec i s = (s.trapIf test).finish s) : (holds → Raises i s .trap) ∧ (¬holds → DoesNothing i s) := by
  rw [← tests]
  cases test with
  | true => exact ⟨fun _ => run, absurd rfl⟩
  | false => exact ⟨nofun, fun _ => .of_exec run⟩

/-- What comes after an instruction that takes an exception other than the floating-point interrupt (R580). -/
theorem Raises.entry {e : Exc} (raised : Raises i s e) (other : e ≠ .floatingPoint) :
    ∃ t, exec i s = .next t ∧ t = takeException e s ∧ t.cp0.cause.excCode = e.code ∧ t.cp0.status.exl = true ∧
      t.inSlot = false ∧ KeepsAllBut s t [.cp0, .hazards, .late] :=
  ⟨_, raised, rfl, takeException_excCode e s, by rw [takeException_status], takeException_inSlot e s,
    takeException_keeps_of_ne s other⟩

end

/-! ## The instructions -/

/-- Settles O33: each trap instruction tests the comparison of the statement, of integers or of naturals. -/
theorem traps : Obligations.Traps := by
  constructor
  · intro s rs rt code
    exact ⟨.of_pieces rfl (split_rType ..), traps_of_run BitVec.sle_iff_toInt_le rfl,
      .of_pieces rfl (split_rType ..), traps_of_run BitVec.ule_iff_toNat_le rfl,
      .of_pieces rfl (split_rType ..), traps_of_run BitVec.slt_iff_toInt_lt rfl,
      .of_pieces rfl (split_rType ..), traps_of_run BitVec.ult_iff_toNat_lt rfl,
      .of_pieces rfl (split_rType ..), traps_of_run beq_iff_eq rfl,
      .of_pieces rfl (split_rType ..), traps_of_run bne_iff_ne rfl⟩
  · intro s rs imm
    have atLeast : (sext16 imm).sle (s.reg rs) = true ↔ imm.toInt ≤ (s.reg rs).toInt := by
      rw [BitVec.sle_iff_toInt_le, toInt_sext16]
    have below : (s.reg rs).slt (sext16 imm) = true ↔ (s.reg rs).toInt < imm.toInt := by
      rw [BitVec.slt_iff_toInt_lt, toInt_sext16]
    exact ⟨.of_pieces rfl (split_iType ..), traps_of_run atLeast rfl,
      .of_pieces rfl (split_iType ..), traps_of_run BitVec.ule_iff_toNat_le rfl,
      .of_pieces rfl (split_iType ..), traps_of_run below rfl,
      .of_pieces rfl (split_iType ..), traps_of_run BitVec.ult_iff_toNat_lt rfl,
      .of_pieces rfl (split_iType ..), traps_of_run beq_iff_eq rfl,
      .of_pieces rfl (split_iType ..), traps_of_run bne_iff_ne rfl⟩

/-- Settles O34: each of the two takes its exception in every state, and that entry is no floating-point interrupt. -/
theorem systemCallAndBreak : Obligations.SystemCallAndBreak := by
  intro s code
  have syscall : Raises (.syscall code) s .systemCall := rfl
  have brk : Raises (.brk code) s .breakpoint := rfl
  exact ⟨.of_pieces rfl (split_code20 ..), .of_pieces rfl (split_code20 ..), syscall.entry nofun, brk.entry nofun⟩

end Sys2Proof.Machine

/-! PROOFS. The numbers of the floating-point formats (R25, R419): the fields of a word that is put together from them, the value it
stands for, and what a change of sign does to it. -/

namespace Sys2Proof.Machine
open Sys2Proof

/-- The value with another sign; a NaN has none. -/
def FloatVal.withSign (neg : Bool) : FloatVal → FloatVal
  | .nan q => .nan q
  | .inf _ => .inf neg
  | .fin _ m e => .fin neg m e

namespace FloatFormat

/-! ## Formats -/

/-- A format at least as wide as single whose numbers fit a register: what single and double have in common. -/
structure Proper (f : FloatFormat) : Prop where
  prec : 24 ≤ f.prec
  expBits : 8 ≤ f.expBits
  width : f.prec + f.expBits ≤ 64

theorem Proper.of_ieee {f : FloatFormat} (ieee : f = .single ∨ f = .double) : f.Proper := by
  rcases ieee with rfl | rfl <;> constructor <;> decide

variable {f : FloatFormat}

/-- The exponent field has a place for zero, one for infinity, and one for each normal exponent. -/
theorem Proper.two_pow_expBits (proper : f.Proper) : 2 ^ f.expBits = 2 * f.bias + 2 := by
  have := proper.expBits
  have twice : 2 ^ f.expBits = 2 * 2 ^ (f.expBits - 1) := by rw [← pow_succ', Nat.sub_add_cancel (by omega)]
  have pos := Nat.two_pow_pos (f.expBits - 1)
  rw [bias]
  omega

theorem Proper.bias_ge (proper : f.Proper) : 127 ≤ f.bias := by
  have := Nat.pow_le_pow_right (n := 2) (by decide) (Nat.sub_le_sub_right proper.expBits 1)
  rw [bias]
  omega

/-- The sign stands above the fraction and the exponent. -/
theorem Proper.signPlace (proper : f.Proper) : f.prec + f.expBits - 1 = f.prec - 1 + f.expBits := by
  have := proper.prec
  omega

theorem Proper.two_pow_prec (proper : f.Proper) : 2 ^ f.prec = 2 * 2 ^ (f.prec - 1) := by
  have := proper.prec
  rw [← pow_succ', Nat.sub_add_cancel (by omega)]

/-! ## Fields -/

section
variable (proper : f.Proper) (neg : Bool) {exponent fraction : Nat} (exponentBound : exponent < 2 ^ f.expBits)
  (fractionBound : fraction < 2 ^ (f.prec - 1))
include proper exponentBound fractionBound

theorem toNat_pack : (f.pack neg exponent fraction).toNat =
    (neg.toNat * 2 ^ f.expBits + exponent) * 2 ^ (f.prec - 1) + fraction := by
  have signBound : neg.toNat ≤ 1 := neg.toNat_le
  rw [pack, BitVec.toNat_ofNat, Nat.mod_eq_of_lt]
  calc (neg.toNat * 2 ^ f.expBits + exponent) * 2 ^ (f.prec - 1) + fraction
      < (neg.toNat * 2 ^ f.expBits + exponent + 1) * 2 ^ (f.prec - 1) := by rw [Nat.succ_mul]; omega
    _ ≤ (2 * 2 ^ f.expBits) * 2 ^ (f.prec - 1) := Nat.mul_le_mul_right _ (by nlinarith)
    _ = 2 ^ (f.prec + f.expBits) := by rw [pow_add, proper.two_pow_prec]; ring
    _ ≤ 2 ^ 64 := Nat.pow_le_pow_right (by decide) proper.width

theorem fraction_pack : f.fraction (f.pack neg exponent fraction) = fraction := by
  rw [FloatFormat.fraction, toNat_pack proper neg exponentBound fractionBound, Nat.mul_add_mod_self_right,
    Nat.mod_eq_of_lt fractionBound]

theorem toNat_pack_div : (f.pack neg exponent fraction).toNat / 2 ^ (f.prec - 1) = neg.toNat * 2 ^ f.expBits + exponent := by
  rw [toNat_pack proper neg exponentBound fractionBound, Nat.add_comm, Nat.add_mul_div_right _ _ (Nat.two_pow_pos _),
    Nat.div_eq_of_lt fractionBound, Nat.zero_add]

theorem exponent_pack : f.exponent (f.pack neg exponent fraction) = exponent := by
  rw [FloatFormat.exponent, toNat_pack_div proper neg exponentBound fractionBound, Nat.mul_add_mod_self_right,
    Nat.mod_eq_of_lt exponentBound]

theorem sign_pack : f.sign (f.pack neg exponent fraction) = neg := by
  rw [sign, ← BitVec.testBit_toNat, Nat.testBit_eq_decide_div_mod_eq, proper.signPlace, pow_add, ← Nat.div_div_eq_div_mul,
    toNat_pack_div proper neg exponentBound fractionBound, Nat.add_comm, Nat.add_mul_div_right _ _ (Nat.two_pow_pos _),
    Nat.div_eq_of_lt exponentBound, Nat.zero_add]
  cases neg <;> rfl

/-- The value that given fields stand for (R25, R419). -/
theorem value_pack : f.value (f.pack neg exponent fraction) =
    if exponent = 2 ^ f.expBits - 1 then
      if fraction = 0 then .inf neg else .nan (fraction / 2 ^ (f.prec - 2) == 1)
    else if exponent = 0 then .fin neg fraction (f.emin - (f.prec - 1 : Nat))
    else .fin neg (fraction + 2 ^ (f.prec - 1)) (exponent - f.bias - (f.prec - 1 : Nat)) := by
  rw [value, fraction_pack proper neg exponentBound fractionBound, exponent_pack proper neg exponentBound fractionBound,
    sign_pack proper neg exponentBound fractionBound]

end

/-! ## Values of results -/

section
variable (proper : f.Proper) (neg : Bool)
include proper

theorem value_infinity : f.value (f.infinity neg) = .inf neg := by
  have := proper.two_pow_expBits
  rw [infinity, value_pack proper neg (by omega) (Nat.two_pow_pos _), if_pos rfl, if_pos rfl]

theorem value_zero : f.value (f.zero neg) = .fin neg 0 (f.emin - (f.prec - 1 : Nat)) := by
  have := proper.two_pow_expBits
  rw [zero, value_pack proper neg (by omega) (Nat.two_pow_pos _), if_neg (by omega), if_pos rfl]

/-- A NaN with its top fraction bit clear is a quiet one (R419). -/
theorem value_quietNan (draws : Nat) : f.value (f.quietNan draws) = .nan false := by
  have := proper.two_pow_expBits
  have := proper.prec
  have topBit : 2 ^ (f.prec - 1) = 2 * 2 ^ (f.prec - 2) := by rw [← pow_succ']; congr 1; omega
  have room : 2 ^ 22 ≤ 2 ^ (f.prec - 2) := Nat.pow_le_pow_right (by decide) (by omega)
  rw [quietNan]
  generalize payload : (Config.freeWord .nanPayload draws).toNat % 2 ^ (f.prec - 2) = p
  have short : p < 2 ^ (f.prec - 2) := payload ▸ Nat.mod_lt _ (by omega)
  have clear : (if p = 0 then 1 else p) < 2 ^ (f.prec - 2) := by split <;> omega
  have nonzero : (if p = 0 then 1 else p) ≠ 0 := by split <;> omega
  rw [value_pack proper _ (by omega) (by omega), if_pos rfl, if_neg nonzero, Nat.div_eq_of_lt clear]
  rfl

/-- The word of a normal number, by its significand and the exponent of its leading bit. -/
theorem value_pack_normal {q : Nat} {lead : Int} (low : 2 ^ (f.prec - 1) ≤ q) (high : q < 2 ^ f.prec)
    (above : f.emin ≤ lead) (below : lead ≤ f.emax) :
    f.value (f.pack neg (lead + f.bias).toNat (q - 2 ^ (f.prec - 1))) = .fin neg q (lead - (f.prec - 1 : Nat)) := by
  have := proper.two_pow_expBits
  have := proper.two_pow_prec
  have place : ((lead + f.bias).toNat : Int) = lead + f.bias := Int.toNat_of_nonneg (by rw [emin] at above; omega)
  rw [emin] at above
  rw [emax] at below
  rw [value_pack proper neg (by omega) (by omega), if_neg (by omega), if_neg (by omega), place, Nat.sub_add_cancel low,
    add_sub_cancel_right]

theorem value_smallestNormal : f.value (f.smallestNormal neg) = .fin neg (2 ^ (f.prec - 1)) (f.emin - (f.prec - 1 : Nat)) := by
  have := proper.two_pow_expBits
  have := proper.bias_ge
  rw [smallestNormal, value_pack proper neg (by omega) (Nat.two_pow_pos _), if_neg (by omega), if_neg (by omega), Nat.zero_add,
    emin, Nat.cast_one]

theorem value_largest : f.value (f.largest neg) = .fin neg (2 ^ f.prec - 1) (f.emax - (f.prec - 1 : Nat)) := by
  have := proper.two_pow_expBits
  have := proper.two_pow_prec
  have := proper.bias_ge
  have pos := Nat.two_pow_pos (f.prec - 1)
  rw [largest, value_pack proper neg (by omega) (by omega), if_neg (by omega), if_neg (by omega), emax]
  congr 1 <;> omega

end

/-! ## Changing the sign -/

/-- The bits below the sign of a word. -/
def magnitudeBits (f : FloatFormat) (w : Word) : BitVec (f.prec + f.expBits - 1) := w.setWidth _

theorem fraction_eq_magnitudeBits (proper : f.Proper) (w : Word) :
    f.fraction w = (f.magnitudeBits w).toNat % 2 ^ (f.prec - 1) := by
  rw [fraction, magnitudeBits, BitVec.toNat_setWidth, Nat.mod_mod_of_dvd]
  exact pow_dvd_pow 2 (proper.signPlace ▸ Nat.le_add_right ..)

theorem exponent_eq_magnitudeBits (proper : f.Proper) (w : Word) :
    f.exponent w = (f.magnitudeBits w).toNat / 2 ^ (f.prec - 1) := by
  rw [exponent, magnitudeBits, BitVec.toNat_setWidth, proper.signPlace, pow_add, Nat.mod_mul_right_div_self]

/-- The value of a word by its magnitude and its sign. -/
theorem value_eq_withSign (proper : f.Proper) {v w : Word} (same : f.magnitudeBits v = f.magnitudeBits w) :
    f.value v = (f.value w).withSign (f.sign v) := by
  simp only [value, fraction_eq_magnitudeBits proper, exponent_eq_magnitudeBits proper, same]
  repeat' split
  all_goals rfl

theorem value_withSign_self (proper : f.Proper) (w : Word) : (f.value w).withSign (f.sign w) = f.value w :=
  (value_eq_withSign proper rfl).symm

theorem Proper.signPlace_lt (proper : f.Proper) : f.prec + f.expBits - 1 < 64 := by
  have := proper.prec
  have := proper.width
  omega

theorem getLsbD_signMask (proper : f.Proper) (i : Nat) :
    f.signMask.getLsbD i = decide (f.prec + f.expBits - 1 = i) := by
  rw [signMask, ← BitVec.twoPow_eq, BitVec.getLsbD_twoPow, decide_eq_true proper.signPlace_lt, Bool.true_and]

theorem magnitudeBits_eq {v w : Word} (same : ∀ i, i < f.prec + f.expBits - 1 → v.getLsbD i = w.getLsbD i) :
    f.magnitudeBits v = f.magnitudeBits w :=
  BitVec.eq_of_getLsbD_eq fun i below => by
    rw [magnitudeBits, magnitudeBits, BitVec.getLsbD_setWidth, BitVec.getLsbD_setWidth, same i below]

/-- The other sign bit gives the value with the other sign (R408, R413). -/
theorem value_xor_signMask (proper : f.Proper) (w : Word) : f.value (w ^^^ f.signMask) = (f.value w).negate := by
  have magnitude : f.magnitudeBits (w ^^^ f.signMask) = f.magnitudeBits w := magnitudeBits_eq fun i below => by
    rw [BitVec.getLsbD_xor, getLsbD_signMask proper, decide_eq_false below.ne', Bool.xor_false]
  have sign : f.sign (w ^^^ f.signMask) = !f.sign w := by
    rw [sign, BitVec.getLsbD_xor, getLsbD_signMask proper, decide_eq_true rfl, Bool.xor_true, FloatFormat.sign]
  rw [value_eq_withSign proper magnitude, sign, ← value_withSign_self proper w]
  cases f.value w <;> rfl

/-- A clear sign bit gives the value with the positive sign (R407). -/
theorem value_and_not_signMask (proper : f.Proper) (w : Word) :
    f.value (w &&& ~~~f.signMask) = (f.value w).withSign false := by
  have magnitude : f.magnitudeBits (w &&& ~~~f.signMask) = f.magnitudeBits w := magnitudeBits_eq fun i below => by
    have inside : i < 64 := below.trans proper.signPlace_lt
    rw [BitVec.getLsbD_and, BitVec.getLsbD_not, getLsbD_signMask proper, decide_eq_false below.ne', decide_eq_true inside,
      Bool.not_false, Bool.and_true, Bool.and_true]
  have sign : f.sign (w &&& ~~~f.signMask) = false := by
    rw [sign, BitVec.getLsbD_and, BitVec.getLsbD_not, getLsbD_signMask proper, decide_eq_true rfl, Bool.not_true, Bool.and_false,
      Bool.and_false]
  rw [value_eq_withSign proper magnitude, sign]

end FloatFormat

end Sys2Proof.Machine

/-! PROOFS. Rounding (R54, R415): exact results as real numbers, and what the rounding of an integer by a power of 2 and the
rounding to a format deliver of them. -/

namespace Sys2Proof.Machine
open Sys2Proof

/-! ## Signs -/

/-- A magnitude with a sign. -/
def signed (neg : Bool) (y : ℝ) : ℝ := if neg then -y else y

@[simp] theorem signed_true (y : ℝ) : signed true y = -y := rfl
@[simp] theorem signed_false (y : ℝ) : signed false y = y := rfl
@[simp] theorem signed_zero (neg : Bool) : signed neg 0 = 0 := by cases neg <;> simp
@[simp] theorem abs_signed (neg : Bool) (y : ℝ) : |signed neg y| = |y| := by cases neg <;> simp
@[simp] theorem signed_inj {neg : Bool} {y z : ℝ} : signed neg y = signed neg z ↔ y = z := by cases neg <;> simp

theorem signed_eq_mul (neg : Bool) (y : ℝ) : signed neg y = (if neg then -1 else 1) * y := by cases neg <;> simp

theorem signed_mul (neg : Bool) (y c : ℝ) : signed neg (y * c) = signed neg y * c := by cases neg <;> simp

theorem signed_div (neg : Bool) (y c : ℝ) : signed neg (y / c) = signed neg y / c := by cases neg <;> simp [neg_div]

theorem signed_mul_signed (a b : Bool) (y z : ℝ) : signed a y * signed b z = signed (a ^^ b) (y * z) := by
  cases a <;> cases b <;> simp

theorem signed_div_signed (a b : Bool) (y z : ℝ) : signed a y / signed b z = signed (a ^^ b) (y / z) := by
  cases a <;> cases b <;> simp [neg_div, div_neg]

theorem signed_neg_iff {neg : Bool} {y : ℝ} (pos : 0 < y) : neg = true ↔ signed neg y < 0 := by
  cases neg <;> simp [pos, pos.le]

/-- An integer with a sign. -/
def signedInt (neg : Bool) (n : Nat) : ℤ := if neg then -n else n

theorem cast_signedInt (neg : Bool) (n : Nat) : (signedInt neg n : ℝ) = signed neg n := by cases neg <;> simp [signedInt]

/-- An integer by its sign and its magnitude. -/
theorem signed_natAbs (n : ℤ) : signed (decide (n < 0)) n.natAbs = n := by
  rw [Nat.cast_natAbs, Int.cast_abs]
  by_cases negative : n < 0
  · have : (n : ℝ) < 0 := by exact_mod_cast negative
    simp [negative, abs_of_neg this]
  · have : (0 : ℝ) ≤ n := by exact_mod_cast not_lt.mp negative
    simp [negative, abs_of_nonneg this]

/-- A finite value stands for its scaled significand with its sign. -/
theorem FloatVal.num_iff {v : FloatVal} {neg : Bool} {x : ℝ} :
    v.Num neg x ↔ ∃ m e, v = .fin neg m e ∧ x = signed neg (m * (2 : ℝ) ^ e) := by
  simp only [Num, signed_eq_mul, mul_assoc]

theorem FloatVal.num_fin (neg : Bool) (m : Nat) (e : Int) : (FloatVal.fin neg m e).Num neg (signed neg (m * (2 : ℝ) ^ e)) :=
  num_iff.mpr ⟨m, e, rfl, rfl⟩

theorem FloatVal.num_fin_iff {n neg : Bool} {m : Nat} {e : Int} {x : ℝ} :
    (FloatVal.fin n m e).Num neg x ↔ n = neg ∧ x = signed neg (m * (2 : ℝ) ^ e) := by
  rw [num_iff]
  constructor
  · rintro ⟨m, e, same, rfl⟩
    cases same
    exact ⟨rfl, rfl⟩
  · rintro ⟨rfl, rfl⟩
    exact ⟨m, e, rfl, rfl⟩

theorem FloatVal.not_num_inf {n neg : Bool} {x : ℝ} : ¬(FloatVal.inf n).Num neg x := by
  rintro ⟨m, e, same, -⟩
  cases same

theorem FloatVal.not_num_nan {q neg : Bool} {x : ℝ} : ¬(FloatVal.nan q).Num neg x := by
  rintro ⟨m, e, same, -⟩
  cases same

theorem signed_scaled_eq_zero {neg : Bool} {m : Nat} {e : Int} : signed neg (m * (2 : ℝ) ^ e) = 0 ↔ m = 0 := by
  have unit : (2 : ℝ) ^ e ≠ 0 := by positivity
  rw [← abs_eq_zero, abs_signed, abs_eq_zero, mul_eq_zero, Nat.cast_eq_zero]
  simp [unit]

/-! ## Rounding to an integer -/

theorem abs_signed_sub (neg : Bool) (y z : ℝ) : |signed neg y - signed neg z| = |y - z| := by
  cases neg
  · rfl
  · rw [signed_true, signed_true, neg_sub_neg, abs_sub_comm]

theorem signedInt_even {neg : Bool} {n : Nat} (even : n % 2 = 0) : signedInt neg n % 2 = 0 := by
  cases neg <;> simp only [signedInt] <;> omega

/-- The choice between an integer `q` and the next one that a mode makes for the real number `q + z` of a sign (R54). -/
def RightChoice (rm : BitVec 2) (neg up : Bool) (q : Nat) (z : ℝ) : Prop :=
  (rm = 0 → if up then 1 / 2 ≤ z ∧ (z = 1 / 2 → q % 2 = 1) else z ≤ 1 / 2 ∧ (z = 1 / 2 → q % 2 = 0)) ∧ (rm = 1 → up = false) ∧
  (rm = 2 → (up = true ↔ z ≠ 0 ∧ neg = false)) ∧ (rm = 3 → (up = true ↔ z ≠ 0 ∧ neg = true))

theorem RightChoice.roundsToInt {rm : BitVec 2} {neg up : Bool} {q : Nat} {z : ℝ} (right : RightChoice rm neg up q z)
    (low : 0 ≤ z) (high : z < 1) : RoundsToInt rm (signed neg (q + z)) (signedInt neg (if up then q + 1 else q)) := by
  have qPos : (0 : ℝ) ≤ q := Nat.cast_nonneg q
  obtain ⟨nearest, toZero, upward, downward⟩ := right
  rw [RoundsToInt, cast_signedInt]
  refine ⟨fun mode => ?_, fun mode => ?_, fun mode => ?_, fun mode => ?_⟩
  · have choice := nearest mode
    rw [abs_signed_sub]
    cases up with
    | true =>
      obtain ⟨half, tie⟩ := choice
      rw [if_pos rfl, Nat.cast_succ, add_sub_add_left_eq_sub, abs_sub_comm, abs_of_pos (by linarith)]
      exact ⟨by linarith, fun even => signedInt_even (by have := tie (by linarith); omega)⟩
    | false =>
      obtain ⟨half, tie⟩ := choice
      rw [if_neg Bool.false_ne_true, add_sub_cancel_left, abs_of_nonneg low]
      exact ⟨half, fun even => signedInt_even (tie even)⟩
  · rw [toZero mode, if_neg Bool.false_ne_true, signed_mul_signed, abs_signed, abs_signed, abs_of_nonneg qPos,
      abs_of_nonneg (add_nonneg qPos low), Bool.xor_self]
    exact ⟨mul_nonneg (add_nonneg qPos low) qPos, by linarith, by linarith⟩
  · have choice := upward mode
    cases neg <;> cases up <;> simp only [signed_true, signed_false] <;> grind
  · have choice := downward mode
    cases neg <;> cases up <;> simp only [signed_true, signed_false] <;> grind

/-- An integer is rounded to itself. -/
theorem roundsToInt_self (rm : BitVec 2) (n : ℤ) : RoundsToInt rm n n := by
  refine ⟨fun _ => ?_, fun _ => ?_, fun _ => ?_, fun _ => ?_⟩
  · rw [sub_self, abs_zero]
    exact ⟨by norm_num, fun tie => by norm_num at tie⟩
  · exact ⟨mul_self_nonneg _, le_rfl, lt_add_one _⟩
  · exact ⟨le_rfl, lt_add_one _⟩
  · exact ⟨le_rfl, lt_add_one _⟩

theorem roundsToInt_signed (rm : BitVec 2) (neg : Bool) (n : Nat) : RoundsToInt rm (signed neg n) (signedInt neg n) :=
  cast_signedInt neg n ▸ roundsToInt_self rm _

/-- An integer scaled by a power of 2, with a mark for bits below it, is the truncation of a magnitude. -/
def Truncates (m : Nat) (e : Int) (sticky : Bool) (y : ℝ) : Prop :=
  m * (2 : ℝ) ^ e ≤ y ∧ y < (m + 1) * (2 : ℝ) ^ e ∧ (sticky = true ↔ y ≠ m * (2 : ℝ) ^ e)

/-- The scale of a truncation does not matter. -/
theorem truncates_mul {m : Nat} {e : Int} {sticky : Bool} {u : ℝ} :
    Truncates m e sticky (u * 2 ^ e) ↔ m ≤ u ∧ u < m + 1 ∧ (sticky = true ↔ u ≠ m) := by
  have unit : (0 : ℝ) < 2 ^ e := by positivity
  rw [Truncates, mul_le_mul_iff_left₀ unit, mul_lt_mul_iff_left₀ unit, ne_eq, ne_eq, mul_left_inj' unit.ne']

theorem Truncates.exact (m : Nat) (e : Int) : Truncates m e false (m * (2 : ℝ) ^ e) := by
  have : (0 : ℝ) < 2 ^ e := by positivity
  refine ⟨le_rfl, ?_, by simp⟩
  nlinarith

/-- The choice that `roundShift` makes between a quotient and the next integer, by the rest and the bits below it. -/
def roundsUp (rm : BitVec 2) (neg : Bool) (q r half : Nat) (sticky : Bool) : Bool :=
  if rm = 0 then decide (half < r) || (r == half && (sticky || q % 2 == 1))
  else if rm = 2 then (r != 0 || sticky) && !neg
  else if rm = 3 then (r != 0 || sticky) && neg
  else false

theorem roundShift_zero (rm : BitVec 2) (neg : Bool) (m : Nat) (sticky : Bool) : roundShift rm neg m 0 sticky = (m, sticky) := rfl

theorem roundShift_succ (rm : BitVec 2) (neg : Bool) (m j : Nat) (sticky : Bool) :
    roundShift rm neg m (j + 1) sticky =
      (if roundsUp rm neg (m / 2 ^ (j + 1)) (m % 2 ^ (j + 1)) (2 ^ j) sticky then m / 2 ^ (j + 1) + 1 else m / 2 ^ (j + 1),
        m % 2 ^ (j + 1) != 0 || sticky) := rfl

theorem roundsUp_nearest (neg : Bool) (q r half : Nat) (sticky : Bool) : roundsUp 0 neg q r half sticky = true ↔
    half < r ∨ r = half ∧ (sticky = true ∨ q % 2 = 1) := by
  simp [roundsUp]

theorem roundsUp_upward (neg : Bool) (q r half : Nat) (sticky : Bool) : roundsUp 2 neg q r half sticky = true ↔
    (r != 0 || sticky) = true ∧ neg = false := by
  simp [roundsUp]

theorem roundsUp_downward (neg : Bool) (q r half : Nat) (sticky : Bool) : roundsUp 3 neg q r half sticky = true ↔
    (r != 0 || sticky) = true ∧ neg = true := by
  simp [roundsUp]

/-- An exact quotient is kept in every mode. -/
theorem roundsUp_exact (rm : BitVec 2) (neg : Bool) (q : Nat) {half : Nat} (pos : 0 < half) :
    roundsUp rm neg q 0 half false = false := by
  simp [roundsUp, pos.ne]

section
variable {sticky : Bool} {q r half : Nat} {z : ℝ} (pos : 0 < half)
  (low : r ≤ z * (2 * half)) (high : z * (2 * half) < r + 1) (marked : sticky = true ↔ z * (2 * half) ≠ r)
include pos low marked

/-- The rest and the mark tell whether there is anything past the quotient. -/
theorem inexact_iff : (r != 0 || sticky) = true ↔ z ≠ 0 := by
  have unit : (0 : ℝ) < 2 * half := by positivity
  rcases Nat.eq_zero_or_pos r with rfl | rPos
  · simpa [pos.ne'] using marked
  · have : (0 : ℝ) < r := Nat.cast_pos.mpr rPos
    have : z ≠ 0 := (pos_of_mul_pos_left (this.trans_le low) unit.le).ne'
    simp [rPos.ne', this]

/-- The integer chosen is the real number exactly when there is nothing past the quotient. -/
theorem inexact_iff_ne_roundsUp (below : z < 1) (rm : BitVec 2) (neg : Bool) : (r != 0 || sticky) = true ↔
    q + z ≠ ((if roundsUp rm neg q r half sticky then q + 1 else q : Nat) : ℝ) := by
  split
  · next up =>
    have inexact : (r != 0 || sticky) = true := by
      by_contra exact
      obtain ⟨rfl, rfl⟩ : r = 0 ∧ sticky = false := by simpa using exact
      simp [roundsUp_exact rm neg q pos] at up
    refine iff_of_true inexact ?_
    push_cast
    linarith
  · rw [inexact_iff pos low marked, ne_eq, ne_eq, add_eq_left]

include high

/-- To nearest the rest decides, and the mark only where the rest is half a unit. -/
theorem roundsUp_nearest_right (neg : Bool) : if roundsUp 0 neg q r half sticky then 1 / 2 ≤ z ∧ (z = 1 / 2 → q % 2 = 1)
    else z ≤ 1 / 2 ∧ (z = 1 / 2 → q % 2 = 0) := by
  have up := roundsUp_nearest neg q r half sticky
  have unit : (0 : ℝ) < half := Nat.cast_pos.mpr pos
  rcases lt_trichotomy r half with less | rfl | more
  · have : (r : ℝ) + 1 ≤ half := by exact_mod_cast less
    have below : z < 1 / 2 := by nlinarith
    rw [Bool.eq_false_iff.mpr (mt up.mp (by omega))]
    exact ⟨below.le, fun tie => absurd tie below.ne⟩
  · have atLeast : 1 / 2 ≤ z := by nlinarith
    have mark : sticky = true ↔ z ≠ 1 / 2 := marked.trans (not_congr
      ⟨fun whole => by nlinarith, fun tie => by rw [tie]; ring⟩)
    cases choice : roundsUp 0 neg q r r sticky with
    | true =>
      exact ⟨atLeast, fun tie => ((up.mp choice).resolve_left (lt_irrefl _)).2.resolve_left fun s => mark.mp s tie⟩
    | false =>
      have kept : ¬(sticky = true ∨ q % 2 = 1) := fun or =>
        Bool.false_ne_true (choice.symm.trans (up.mpr (.inr ⟨rfl, or⟩)))
      have : z = 1 / 2 := not_not.mp (mt mark.mpr fun s => kept (.inl s))
      exact ⟨this.le, fun _ => by omega⟩
  · have : (half : ℝ) + 1 ≤ r := by exact_mod_cast more
    have above : 1 / 2 < z := by nlinarith
    rw [up.mpr (.inl more)]
    exact ⟨above.le, fun tie => absurd tie above.ne'⟩

/-- `roundShift` makes the right choice. -/
theorem roundsUp_right (rm : BitVec 2) (neg : Bool) : RightChoice rm neg (roundsUp rm neg q r half sticky) q z := by
  refine ⟨?_, ?_, ?_, ?_⟩
  · rintro rfl
    exact roundsUp_nearest_right pos low high marked neg
  · rintro rfl
    rfl
  · rintro rfl
    rw [roundsUp_upward, inexact_iff pos low marked]
  · rintro rfl
    rw [roundsUp_downward, inexact_iff pos low marked]

end

/-- An integer divided by a power of 2 and rounded is the real number that it truncates, scaled and rounded, and the rounding
tells whether that is inexact. -/
theorem Truncates.roundShift {m k : Nat} {e : Int} {sticky : Bool} {y : ℝ} (truncates : Truncates m e sticky y)
    (below : sticky = true → k ≠ 0) (rm : BitVec 2) (neg : Bool) :
    RoundsToInt rm (signed neg (y / (2 : ℝ) ^ (e + k))) (signedInt neg (Machine.roundShift rm neg m k sticky).1) ∧
    ((Machine.roundShift rm neg m k sticky).2 = true ↔
      y / (2 : ℝ) ^ (e + k) ≠ (Machine.roundShift rm neg m k sticky).1) := by
  have unit : (0 : ℝ) < 2 ^ e := by positivity
  obtain ⟨u, rfl⟩ : ∃ u, y = u * 2 ^ e := ⟨y / 2 ^ e, by field_simp⟩
  obtain ⟨low, high, marked⟩ := truncates_mul.mp truncates
  cases k with
  | zero =>
    have exact : sticky = false := Bool.eq_false_iff.mpr fun mark => below mark rfl
    have whole : u = m := not_not.mp (mt marked.mpr (by simp [exact]))
    rw [roundShift_zero, Nat.cast_zero, add_zero, mul_div_cancel_right₀ _ unit.ne', whole]
    exact ⟨roundsToInt_signed rm neg m, by simp [exact]⟩
  | succ j =>
    have double : 2 ^ (j + 1) = 2 * 2 ^ j := pow_succ' 2 j
    have parts : (m : ℝ) = (m / 2 ^ (j + 1) : Nat) * 2 ^ (j + 1) + (m % 2 ^ (j + 1) : Nat) := by
      exact_mod_cast (Nat.div_add_mod' m (2 ^ (j + 1))).symm
    have rest : m % 2 ^ (j + 1) < 2 * 2 ^ j := double ▸ Nat.mod_lt m (Nat.two_pow_pos _)
    rw [roundShift_succ]
    generalize m / 2 ^ (j + 1) = q, m % 2 ^ (j + 1) = r at parts rest ⊢
    obtain ⟨v, rfl⟩ : ∃ v, u = v * 2 ^ (j + 1) := ⟨u / 2 ^ (j + 1), by field_simp⟩
    have scaled : v * (2 : ℝ) ^ (j + 1) * 2 ^ e / 2 ^ (e + (j + 1 : Nat)) = q + (v - q) := by
      rw [zpow_add₀ two_ne_zero, zpow_natCast, mul_assoc, mul_comm (2 ^ (j + 1) : ℝ), mul_div_cancel_right₀ _ (by positivity),
        add_sub_cancel]
    have past : (v - q) * (2 * (2 ^ j : Nat)) = v * 2 ^ (j + 1) - q * 2 ^ (j + 1) := by
      push_cast
      ring
    have unit : (0 : ℝ) < 2 ^ (j + 1) := by positivity
    have rest' : (r : ℝ) + 1 ≤ 2 ^ (j + 1) := by exact_mod_cast double ▸ rest
    have restPos : (0 : ℝ) ≤ r := Nat.cast_nonneg r
    have below : v - q < 1 := by by_contra above; nlinarith
    have above : 0 ≤ v - q := by by_contra below; nlinarith
    have low' : (r : ℝ) ≤ (v - q) * (2 * (2 ^ j : Nat)) := by linarith
    have marked' : sticky = true ↔ (v - q) * (2 * (2 ^ j : Nat)) ≠ r :=
      marked.trans (not_congr ⟨fun whole => by linarith, fun whole => by linarith⟩)
    have pos := Nat.two_pow_pos j
    rw [scaled]
    exact ⟨(roundsUp_right pos low' (by linarith) marked' rm neg).roundsToInt above below,
      inexact_iff_ne_roundsUp pos low' marked' below rm neg⟩

theorem roundShift_bounds (rm : BitVec 2) (neg : Bool) (m k : Nat) (sticky : Bool) :
    m / 2 ^ k ≤ (roundShift rm neg m k sticky).1 ∧ (roundShift rm neg m k sticky).1 ≤ m / 2 ^ k + 1 := by
  cases k with
  | zero => simp [roundShift_zero]
  | succ j =>
    rw [roundShift_succ]
    split <;> omega

/-! ## Rounding to a format -/

/-- The place of the leading bit bounds a magnitude from both sides. -/
theorem Truncates.lead_bounds {m : Nat} {e : Int} {sticky : Bool} {y : ℝ} (truncates : Truncates m e sticky y) (nonzero : m ≠ 0) :
    (2 : ℝ) ^ (e + m.log2) ≤ y ∧ y < (2 : ℝ) ^ (e + m.log2 + 1) := by
  obtain ⟨low, high, -⟩ := truncates
  have unit : (0 : ℝ) < 2 ^ e := by positivity
  have lower : (2 : ℝ) ^ m.log2 ≤ m := by exact_mod_cast Nat.log2_self_le nonzero
  have upper : (m : ℝ) + 1 ≤ 2 ^ (m.log2 + 1) := by exact_mod_cast Nat.lt_log2_self
  constructor
  · calc (2 : ℝ) ^ (e + m.log2) = 2 ^ m.log2 * 2 ^ e := by rw [zpow_add₀ two_ne_zero, zpow_natCast, mul_comm]
      _ ≤ m * 2 ^ e := by gcongr
      _ ≤ y := low
  · calc y < (m + 1) * 2 ^ e := high
      _ ≤ 2 ^ (m.log2 + 1) * 2 ^ e := by gcongr
      _ = 2 ^ (e + m.log2 + 1) := by rw [add_assoc, zpow_add₀ two_ne_zero e, ← Nat.cast_succ, zpow_natCast, mul_comm]

theorem Truncates.eq_of_exact {m : Nat} {e : Int} {y : ℝ} (truncates : Truncates m e false y) : y = m * (2 : ℝ) ^ e :=
  not_not.mp (mt truncates.2.2.mpr Bool.false_ne_true)

namespace FloatFormat
variable {f : FloatFormat}

/-- The bits of a non-zero integer rounded to the precision of a format, and whether that was inexact. -/
def significand (f : FloatFormat) (rm : BitVec 2) (neg : Bool) (m : Nat) (sticky : Bool) : Nat × Bool :=
  if m.log2 + 1 ≤ f.prec then (m * 2 ^ (f.prec - (m.log2 + 1)), sticky) else roundShift rm neg m (m.log2 + 1 - f.prec) sticky

/-- A rounded significand, with the exponent of its leading bit before rounding, as a word of the format. -/
def assemble (f : FloatFormat) (rm : BitVec 2) (neg : Bool) (lead : Int) (r : Nat × Bool) : FloatResult :=
  let q := if r.1 = 2 ^ f.prec then 2 ^ (f.prec - 1) else r.1
  let lead := if r.1 = 2 ^ f.prec then lead + 1 else lead
  if f.emax < lead then f.overflow rm neg
  else ⟨f.pack neg (lead + f.bias).toNat (q - 2 ^ (f.prec - 1)), if r.2 then flagI else 0, false⟩

theorem round_of_normal {mode : FloatMode} {neg : Bool} {m : Nat} {e : Int} {sticky : Bool} (normal : f.emin ≤ e + m.log2) :
    f.round mode neg m e sticky = f.assemble mode.rm neg (e + m.log2) (f.significand mode.rm neg m sticky) := by
  rw [round, if_neg (not_lt.mpr normal)]
  rfl

theorem round_of_tiny {mode : FloatMode} {neg : Bool} {m : Nat} {e : Int} {sticky : Bool} (tiny : e + m.log2 < f.emin) :
    f.round mode neg m e sticky = f.tiny mode neg m e sticky := by
  rw [round, if_pos tiny]

/-- The significand is the magnitude in units of its last place, rounded; its leading bit is at the top or one above. -/
theorem significand_spec (proper : f.Proper) {m : Nat} {e : Int} {sticky : Bool} {y : ℝ} (truncates : Truncates m e sticky y)
    (nonzero : m ≠ 0) (wide : sticky = true → f.prec ≤ m.log2) (rm : BitVec 2) (neg : Bool) :
    let q := f.significand rm neg m sticky
    let unit := (2 : ℝ) ^ (e + m.log2 - (f.prec - 1 : Nat))
    RoundsToInt rm (signed neg (y / unit)) (signedInt neg q.1) ∧ (q.2 = true ↔ y / unit ≠ q.1) ∧
      2 ^ (f.prec - 1) ≤ q.1 ∧ q.1 ≤ 2 ^ f.prec := by
  have := proper.prec
  have := proper.two_pow_prec
  have lower := Nat.log2_self_le nonzero
  have upper := Nat.lt_log2_self (n := m)
  dsimp only
  by_cases short : m.log2 + 1 ≤ f.prec
  · obtain ⟨z, places⟩ := Nat.exists_eq_add_of_le short
    have exact : sticky = false := Bool.eq_false_iff.mpr fun mark => by have := wide mark; omega
    subst exact
    have unit : e + m.log2 - (f.prec - 1 : Nat) = e - z := by omega
    have whole : y / (2 : ℝ) ^ (e - z) = (m * 2 ^ z : Nat) := by
      rw [truncates.eq_of_exact, zpow_sub₀ two_ne_zero, zpow_natCast]
      push_cast
      field_simp
    rw [significand, if_pos short, show f.prec - (m.log2 + 1) = z by omega, unit, whole]
    refine ⟨roundsToInt_signed rm neg _, by simp, ?_, ?_⟩
    · rw [show f.prec - 1 = m.log2 + z by omega, pow_add]
      exact Nat.mul_le_mul_right _ lower
    · rw [places, pow_add]
      exact Nat.mul_le_mul_right _ upper.le
  · obtain ⟨k, places⟩ := Nat.exists_eq_add_of_lt (not_le.mp short)
    have unit : e + m.log2 - (f.prec - 1 : Nat) = e + (k + 1 : Nat) := by omega
    rw [significand, if_neg short, show m.log2 + 1 - f.prec = k + 1 by omega, unit]
    obtain ⟨rounds, inexact⟩ := truncates.roundShift (k := k + 1) (fun _ => k.succ_ne_zero) rm neg
    obtain ⟨least, most⟩ := roundShift_bounds rm neg m (k + 1) sticky
    have low : 2 ^ (f.prec - 1) ≤ m / 2 ^ (k + 1) := by
      rw [Nat.le_div_iff_mul_le (Nat.two_pow_pos _), ← pow_add, show f.prec - 1 + (k + 1) = m.log2 by omega]
      exact lower
    have high : m / 2 ^ (k + 1) < 2 ^ f.prec := by
      rw [Nat.div_lt_iff_lt_mul (Nat.two_pow_pos _), ← pow_add, show f.prec + (k + 1) = m.log2 + 1 by omega]
      exact upper
    exact ⟨rounds, inexact, low.trans least, most.trans high⟩

theorem assemble_of_lt {q : Nat} (high : q < 2 ^ f.prec) (rm : BitVec 2) (neg : Bool) (lead : Int) (inexact : Bool) :
    f.assemble rm neg lead (q, inexact) = if f.emax < lead then f.overflow rm neg
      else ⟨f.pack neg (lead + f.bias).toNat (q - 2 ^ (f.prec - 1)), if inexact then flagI else 0, false⟩ := by
  simp only [assemble, if_neg high.ne]

/-- A significand rounded up to the next power of 2 is one with the next exponent. -/
theorem assemble_carry (proper : f.Proper) (rm : BitVec 2) (neg : Bool) (lead : Int) (inexact : Bool) :
    f.assemble rm neg lead (2 ^ f.prec, inexact) = f.assemble rm neg (lead + 1) (2 ^ (f.prec - 1), inexact) := by
  have := proper.two_pow_prec
  have := Nat.two_pow_pos (f.prec - 1)
  rw [assemble_of_lt (by omega : 2 ^ (f.prec - 1) < 2 ^ f.prec)]
  simp only [assemble, if_true]

/-- A rounded magnitude beyond the exponent range overflows; another one is the value of the assembled word. -/
def Assembled (f : FloatFormat) (rm : BitVec 2) (neg inexact : Bool) (y : ℝ) (r : FloatResult) : Prop :=
  ((2 : ℝ) ^ (f.emax + 1) ≤ y → r = f.overflow rm neg) ∧
  (y < (2 : ℝ) ^ (f.emax + 1) → (f.value r.value).Num neg (signed neg y) ∧ r.raised = (if inexact then flagI else 0) ∧ r.e = false)

/-- A significand whose leading bit is at the top, in units of its last place, lies between two powers of 2. -/
theorem significand_bounds (proper : f.Proper) {q : Nat} (low : 2 ^ (f.prec - 1) ≤ q) (high : q < 2 ^ f.prec) (lead : Int) :
    (2 : ℝ) ^ lead ≤ q * 2 ^ (lead - (f.prec - 1 : Nat)) ∧ q * (2 : ℝ) ^ (lead - (f.prec - 1 : Nat)) < 2 ^ (lead + 1) := by
  have := proper.prec
  have unit : (0 : ℝ) < 2 ^ (lead - (f.prec - 1 : Nat)) := by positivity
  constructor
  · calc (2 : ℝ) ^ lead = 2 ^ (f.prec - 1) * 2 ^ (lead - (f.prec - 1 : Nat)) := by
          rw [← zpow_natCast, ← zpow_add₀ two_ne_zero, add_sub_cancel]
      _ ≤ _ := by gcongr; exact_mod_cast low
  · calc q * (2 : ℝ) ^ (lead - (f.prec - 1 : Nat)) < 2 ^ f.prec * 2 ^ (lead - (f.prec - 1 : Nat)) := by
          gcongr; exact_mod_cast high
      _ = 2 ^ (lead + 1) := by rw [← zpow_natCast, ← zpow_add₀ two_ne_zero]; congr 1; omega

theorem assemble_spec_of_lt (proper : f.Proper) {q : Nat} {lead : Int} (low : 2 ^ (f.prec - 1) ≤ q) (high : q < 2 ^ f.prec)
    (normal : f.emin ≤ lead) (rm : BitVec 2) (neg inexact : Bool) :
    f.Assembled rm neg inexact (q * (2 : ℝ) ^ (lead - (f.prec - 1 : Nat))) (f.assemble rm neg lead (q, inexact)) := by
  obtain ⟨lower, upper⟩ := significand_bounds proper low high lead
  rw [assemble_of_lt high]
  constructor
  · intro beyond
    have : f.emax + 1 < lead + 1 := (zpow_lt_zpow_iff_right₀ one_lt_two).mp (beyond.trans_lt upper)
    rw [if_pos (by omega)]
  · intro within
    have : lead < f.emax + 1 := (zpow_lt_zpow_iff_right₀ one_lt_two).mp (lower.trans_lt within)
    rw [if_neg (by omega), value_pack_normal proper neg low high normal (by omega)]
    exact ⟨FloatVal.num_fin .., rfl, rfl⟩

theorem assemble_spec (proper : f.Proper) {q : Nat} {lead : Int} (low : 2 ^ (f.prec - 1) ≤ q) (high : q ≤ 2 ^ f.prec)
    (normal : f.emin ≤ lead) (rm : BitVec 2) (neg inexact : Bool) :
    f.Assembled rm neg inexact (q * (2 : ℝ) ^ (lead - (f.prec - 1 : Nat))) (f.assemble rm neg lead (q, inexact)) := by
  rcases high.lt_or_eq with below | rfl
  · exact assemble_spec_of_lt proper low below normal rm neg inexact
  · have twice := proper.two_pow_prec
    have carried := assemble_spec_of_lt proper le_rfl (Nat.pow_lt_pow_right one_lt_two (by have := proper.prec; omega))
      (normal.trans (lt_add_one lead).le) rm neg inexact
    have same : ((2 ^ f.prec : Nat) : ℝ) * 2 ^ (lead - (f.prec - 1 : Nat)) =
        ((2 ^ (f.prec - 1) : Nat) : ℝ) * 2 ^ (lead + 1 - (f.prec - 1 : Nat)) := by
      rw [twice, add_sub_right_comm, zpow_add_one₀ two_ne_zero]
      push_cast
      ring
    rwa [assemble_carry proper, same]

/-- What an overflow delivers (R415). -/
theorem overflow_delivers (proper : f.Proper) (rm : BitVec 2) (neg : Bool) {y : ℝ} (pos : 0 < y) :
    DeliversOverflow f rm (signed neg y) (f.overflow rm neg) := by
  refine ⟨rfl, rfl, neg, signed_neg_iff pos, ?_⟩
  rw [overflow]
  split
  · exact value_infinity proper neg
  · have unit : (2 : ℝ) ^ f.emax = 2 ^ (f.prec - 1) * 2 ^ (f.emax - (f.prec - 1 : Nat)) := by
      rw [← zpow_natCast, ← zpow_add₀ two_ne_zero, add_sub_cancel]
    have last : (2 : ℝ) ^ (1 - f.prec : ℤ) * 2 ^ (f.prec - 1) = 1 := by
      rw [← zpow_natCast, ← zpow_add₀ two_ne_zero, show 1 - (f.prec : ℤ) + (f.prec - 1 : Nat) = 0 by have := proper.prec; omega,
        zpow_zero]
    have significand : ((2 ^ f.prec - 1 : Nat) : ℝ) = 2 * 2 ^ (f.prec - 1) - 1 := by
      rw [proper.two_pow_prec, Nat.cast_sub (by have := Nat.two_pow_pos (f.prec - 1); omega)]
      push_cast
      rfl
    refine ⟨_, _, value_largest proper neg, ?_⟩
    rw [significand, unit]
    linear_combination -(if neg then -1 else 1) * (2 : ℝ) ^ (f.emax - (f.prec - 1 : Nat)) * last

/-- What a non-zero result below the smallest normal number delivers (R418, D31). -/
theorem tiny_delivers (proper : f.Proper) (mode : FloatMode) (neg : Bool) {m : Nat} {e : Int} {sticky : Bool} {y : ℝ}
    (truncates : Truncates m e sticky y) (pos : 0 < y) : DeliversTiny f mode (signed neg y) (f.tiny mode neg m e sticky) := by
  have := proper.prec
  rw [tiny]
  split
  · next up =>
    obtain ⟨below, rounded, -⟩ := up
    right; right
    obtain ⟨k, places⟩ := Int.eq_ofNat_of_zero_le below.le
    rw [places, Int.toNat_natCast] at rounded
    obtain ⟨rounds, -⟩ := truncates.roundShift (k := k) (fun _ => by omega) mode.rm neg
    rw [rounded, show e + k = f.emin - f.prec + 1 by omega, signed_div] at rounds
    refine ⟨neg, _, rounds, ?_, ⟨_, _, value_smallestNormal proper neg, ?_⟩, rfl, rfl⟩
    · cases neg <;> simp [signedInt]
    · rw [mul_assoc, Nat.cast_pow, Nat.cast_two, ← zpow_natCast, ← zpow_add₀ two_ne_zero, add_sub_cancel]
  · split
    · next flush => exact .inl ⟨flush, ⟨neg, signed_neg_iff pos, _, _, value_zero proper neg, by simp⟩, rfl, rfl⟩
    · next kept => exact .inr (.inl ⟨Bool.eq_false_iff.mpr kept, rfl, rfl⟩)

/-- What the rounding of a non-zero magnitude delivers (R415, R418). -/
theorem round_delivers (proper : f.Proper) (mode : FloatMode) (neg : Bool) {m : Nat} {e : Int} {sticky : Bool} {y : ℝ}
    (truncates : Truncates m e sticky y) (nonzero : m ≠ 0) (wide : sticky = true → f.prec ≤ m.log2) :
    Delivers f mode (signed neg y) (f.round mode neg m e sticky) := by
  have := proper.prec
  obtain ⟨low, high⟩ := truncates.lead_bounds nonzero
  have pos : 0 < y := (by positivity : (0 : ℝ) < 2 ^ (e + m.log2)).trans_le low
  rw [Delivers, abs_signed, abs_of_pos pos]
  constructor
  · intro small
    have : e + m.log2 < f.emin := (zpow_lt_zpow_iff_right₀ one_lt_two).mp (low.trans_lt small)
    rw [round_of_tiny this]
    exact tiny_delivers proper mode neg truncates pos
  · intro big
    have normal : f.emin < e + m.log2 + 1 := (zpow_lt_zpow_iff_right₀ one_lt_two).mp (big.trans_lt high)
    rw [round_of_normal (by omega)]
    obtain ⟨rounds, inexact, least, most⟩ := significand_spec proper truncates nonzero wide mode.rm neg
    generalize f.significand mode.rm neg m sticky = r at *
    obtain ⟨q, mark⟩ := r
    obtain ⟨beyond, within⟩ := assemble_spec (lead := e + m.log2) proper least most (by omega) mode.rm neg mark
    have unit : (2 : ℝ) ^ (e + m.log2 - f.prec + 1) = 2 ^ (e + m.log2 - (f.prec - 1 : Nat)) := by congr 1; omega
    have unitPos : (0 : ℝ) < 2 ^ (e + m.log2 - (f.prec - 1 : Nat)) := by positivity
    refine ⟨signed neg (q * 2 ^ (e + m.log2 - (f.prec - 1 : Nat))), ⟨e + m.log2, signedInt neg q, ?_, ?_, ?_, ?_⟩, ?_, ?_⟩
    · rwa [abs_signed, abs_of_pos pos]
    · rwa [abs_signed, abs_of_pos pos]
    · rwa [unit, ← signed_div]
    · rw [unit, cast_signedInt, signed_mul]
    · rw [abs_signed, abs_of_nonneg (by positivity)]
      intro past
      rw [beyond past]
      exact overflow_delivers proper mode.rm neg pos
    · rw [abs_signed, abs_of_nonneg (by positivity)]
      intro inside
      obtain ⟨value, raised, noE⟩ := within inside
      refine ⟨⟨neg, value⟩, ?_, noE⟩
      have changed : mark = true ↔ q * 2 ^ (e + m.log2 - (f.prec - 1 : Nat)) ≠ y := by
        rw [inexact, ne_comm, ne_eq, ne_eq, eq_div_iff unitPos.ne']
      rw [signed_inj, raised]
      cases mark with
      | true => exact .inr ⟨rfl, fun same => changed.mp rfl (signed_inj.mp same)⟩
      | false => exact .inl ⟨rfl, not_not.mp (mt changed.mpr Bool.false_ne_true)⟩

/-! ## Delivered results -/

theorem deliver_nan (proper : f.Proper) (mode : FloatMode) : GivesNan f (f.deliver mode .nan) 0 :=
  ⟨value_quietNan proper _, rfl, rfl⟩

theorem deliver_invalid (proper : f.Proper) (mode : FloatMode) : GivesNan f (f.deliver mode .invalid) flagV :=
  ⟨value_quietNan proper _, rfl, rfl⟩

theorem deliver_divZero (proper : f.Proper) (mode : FloatMode) (neg : Bool) :
    GivesInf f (f.deliver mode (.divZero neg)) neg flagZ :=
  ⟨value_infinity proper neg, rfl, rfl⟩

theorem deliver_inf (proper : f.Proper) (mode : FloatMode) (neg : Bool) : GivesInf f (f.deliver mode (.inf neg)) neg 0 :=
  ⟨value_infinity proper neg, rfl, rfl⟩

theorem deliver_zero (proper : f.Proper) (mode : FloatMode) (neg : Bool) (e : Int) (sticky : Bool) :
    GivesZero f (f.deliver mode (.fin neg 0 e sticky)) neg :=
  ⟨⟨_, _, value_zero proper neg, by simp⟩, rfl, rfl⟩

end FloatFormat

/-- An exact result stands for a real number, to enough bits for a precision; one for zero has the given sign. -/
def Exact.StandsFor (prec : Nat) (x : ℝ) (zeroNeg : Bool) : Exact → Prop
  | .fin neg m e sticky =>
    ∃ y, x = signed neg y ∧ Truncates m e sticky y ∧ (sticky = true → prec ≤ m.log2) ∧ (x = 0 → neg = zeroNeg)
  | _ => False

/-- A finite exact result is delivered as the real number that it stands for, rounded once (R415). -/
theorem FloatFormat.deliver_of_standsFor {f : FloatFormat} (proper : f.Proper) (mode : FloatMode) {exact : Exact} {x : ℝ}
    {zeroNeg : Bool} (stands : exact.StandsFor f.prec x zeroNeg) : DeliversAny f mode x zeroNeg (f.deliver mode exact) := by
  cases exact with
  | fin neg m e sticky =>
    obtain ⟨y, rfl, truncates, wide, sign⟩ := stands
    by_cases zero : m = 0
    · subst zero
      have exact : sticky = false := Bool.eq_false_iff.mpr fun mark => by
        have := wide mark
        have := proper.prec
        simp at *
        omega
      subst exact
      have nothing : y = 0 := by simpa using truncates.eq_of_exact
      subst nothing
      rw [signed_zero] at sign ⊢
      rw [← sign rfl]
      exact ⟨fun _ => deliver_zero proper mode neg e false, absurd rfl⟩
    · obtain ⟨low, -⟩ := truncates.lead_bounds zero
      have pos : 0 < y := (by positivity : (0 : ℝ) < 2 ^ (e + m.log2)).trans_le low
      have nonzero : signed neg y ≠ 0 := by rw [← abs_pos, abs_signed, abs_of_pos pos]; exact pos
      refine ⟨fun none => absurd none nonzero, fun _ => ?_⟩
      rw [deliver, if_neg zero]
      exact round_delivers proper mode neg truncates zero wide
  | _ => exact stands.elim

/-- Settles O55: a significand with no more bits than the precision is shifted to the top and kept. -/
theorem exactResultsAreDelivered : Obligations.ExactResultsAreDelivered := by
  intro f mode neg m e ieee pos bound above below
  have proper := FloatFormat.Proper.of_ieee ieee
  have short : m.log2 < f.prec := (Nat.log2_lt pos.ne').mpr bound
  obtain ⟨k, places⟩ := Nat.exists_eq_add_of_lt short
  have significand : f.significand mode.rm neg m false = (m * 2 ^ k, false) := by
    rw [FloatFormat.significand, if_pos (Nat.succ_le_of_lt short), show f.prec - (m.log2 + 1) = k by omega]
  have low : 2 ^ (f.prec - 1) ≤ m * 2 ^ k := by
    rw [show f.prec - 1 = m.log2 + k by omega, pow_add]
    exact Nat.mul_le_mul_right _ (Nat.log2_self_le pos.ne')
  have high : m * 2 ^ k < 2 ^ f.prec := by
    rw [show f.prec = m.log2 + 1 + k by omega, pow_add]
    exact Nat.mul_lt_mul_of_pos_right Nat.lt_log2_self (Nat.two_pow_pos k)
  rw [FloatFormat.round_of_normal above, significand, FloatFormat.assemble_of_lt high, if_neg (by omega)]
  refine ⟨rfl, rfl, k, ?_⟩
  rw [FloatFormat.value_pack_normal proper neg low high above below]
  congr 1
  omega

end Sys2Proof.Machine

/-! PROOFS. Exact results (R402 to R406, R409 to R411): each finite one stands for the sum, product, quotient, square root or
reciprocal square root of the real numbers that the operands stand for. -/

namespace Sys2Proof.Machine
open Sys2Proof

/-! ## Integers scaled by powers of 2 -/

/-- A scaled integer stands for its value at every exponent that is not above its own. -/
theorem scaled_mul (neg : Bool) (m : Nat) {e low : Int} (below : low ≤ e) :
    (scaled neg m e low : ℝ) * 2 ^ low = signed neg (m * (2 : ℝ) ^ e) := by
  obtain ⟨k, places⟩ := Int.eq_ofNat_of_zero_le (sub_nonneg.mpr below)
  have unit : (2 : ℝ) ^ e = 2 ^ k * 2 ^ low := by
    rw [← zpow_natCast, ← zpow_add₀ two_ne_zero]
    congr 1
    omega
  rw [scaled, places, Int.toNat_natCast, unit]
  cases neg <;> push_cast <;> simp [mul_assoc]

/-- An integer with its exponent is an exact result. -/
theorem Exact.standsFor_fin (prec : Nat) (neg : Bool) (m : Nat) (e : Int) :
    (Exact.fin neg m e false).StandsFor prec (signed neg (m * (2 : ℝ) ^ e)) neg :=
  ⟨_, rfl, .exact m e, nofun, fun _ => rfl⟩

/-! ## Sums and products -/

theorem addFinite_standsFor (prec : Nat) (rm : BitVec 2) (an : Bool) (am : Nat) (ae : Int) (bn : Bool) (bm : Nat) (be : Int) :
    (addFinite rm an am ae bn bm be).StandsFor prec (signed an (am * (2 : ℝ) ^ ae) + signed bn (bm * (2 : ℝ) ^ be))
      (if an = bn then an else rm == 3) := by
  rw [← scaled_mul an am (min_le_left ae be), ← scaled_mul bn bm (min_le_right ae be), ← add_mul, ← Int.cast_add, addFinite]
  generalize scaled an am ae (min ae be) + scaled bn bm be (min ae be) = t, (if an = bn then an else rm == 3) = zeroNeg
  by_cases none : t = 0
  · rw [if_pos none, none, Int.cast_zero, zero_mul]
    refine ⟨0, (signed_zero _).symm, ?_, nofun, fun _ => rfl⟩
    simpa using Truncates.exact 0 0
  · have nonzero : (t : ℝ) * 2 ^ min ae be ≠ 0 := mul_ne_zero (Int.cast_ne_zero.mpr none) (by positivity)
    rw [if_neg none]
    refine ⟨_, ?_, .exact _ _, nofun, fun zero => absurd zero nonzero⟩
    rw [signed_mul, signed_natAbs]

theorem signed_mul_scaled (an bn : Bool) (am bm : Nat) (ae be : Int) :
    signed an (am * (2 : ℝ) ^ ae) * signed bn (bm * (2 : ℝ) ^ be) = signed (an ^^ bn) ((am * bm : Nat) * (2 : ℝ) ^ (ae + be)) := by
  rw [signed_mul_signed, zpow_add₀ two_ne_zero, Nat.cast_mul, mul_mul_mul_comm]

theorem mul_standsFor (prec : Nat) (an : Bool) (am : Nat) (ae : Int) (bn : Bool) (bm : Nat) (be : Int) :
    (Exact.fin (an ^^ bn) (am * bm) (ae + be) false).StandsFor prec (signed an (am * (2 : ℝ) ^ ae) * signed bn (bm * (2 : ℝ) ^ be))
      (an ^^ bn) :=
  signed_mul_scaled an bn am bm ae be ▸ Exact.standsFor_fin ..

/-! ## Quotients -/

theorem Truncates.div (n : Nat) {d : Nat} (pos : 0 < d) (e : Int) :
    Truncates (n / d) e (n % d != 0) ((n / d : ℝ) * 2 ^ e) := by
  have dPos : (0 : ℝ) < d := Nat.cast_pos.mpr pos
  have parts : (n : ℝ) = (n / d : Nat) * d + (n % d : Nat) := by exact_mod_cast (Nat.div_add_mod' n d).symm
  have rest : ((n % d : Nat) : ℝ) < d := by exact_mod_cast Nat.mod_lt n pos
  have restPos : (0 : ℝ) ≤ (n % d : Nat) := Nat.cast_nonneg _
  refine truncates_mul.mpr ⟨?_, ?_, ?_⟩
  · rw [le_div_iff₀ dPos]; linarith
  · rw [div_lt_iff₀ dPos]; linarith
  · rw [bne_iff_ne, ne_eq, ne_eq, div_eq_iff dPos.ne', parts, add_eq_left, Nat.cast_eq_zero]

/-- The quotient of two non-zero values is truncated to more bits than the precision. -/
theorem divFinite_truncates (prec : Nat) {am bm : Nat} (ae be : Int) (aNonzero : am ≠ 0) (bNonzero : bm ≠ 0) :
    ∃ q e sticky, (∀ neg, divFinite prec neg am ae bm be = .fin neg q e sticky) ∧ prec ≤ q.log2 ∧
      Truncates q e sticky (am * (2 : ℝ) ^ ae / (bm * 2 ^ be)) := by
  have bPos : 0 < bm := Nat.pos_of_ne_zero bNonzero
  refine ⟨_, _, _, fun neg => rfl, ?_, ?_⟩
  · have bits : 2 ^ prec ≤ am * 2 ^ (prec + 2 + bm.log2) / bm := by
      rw [Nat.le_div_iff_mul_le bPos]
      calc 2 ^ prec * bm ≤ 2 ^ prec * 2 ^ (bm.log2 + 1) := Nat.mul_le_mul_left _ Nat.lt_log2_self.le
        _ ≤ 2 ^ (prec + 2 + bm.log2) := by rw [← pow_add]; exact Nat.pow_le_pow_right (by decide) (by omega)
        _ ≤ am * 2 ^ (prec + 2 + bm.log2) := Nat.le_mul_of_pos_left _ (Nat.pos_of_ne_zero aNonzero)
    exact (Nat.le_log2 (by have := Nat.two_pow_pos prec; omega)).mpr bits
  · convert Truncates.div (am * 2 ^ (prec + 2 + bm.log2)) bPos (ae - be - (prec + 2 + bm.log2 : Nat)) using 1
    rw [zpow_sub₀ two_ne_zero, zpow_sub₀ two_ne_zero, zpow_natCast]
    push_cast
    field_simp

/-! ## Square roots -/

theorem isqrtBits_spec (n i : Nat) (r : Nat) (low : r * r ≤ n) (high : n < (r + 2 ^ i) * (r + 2 ^ i)) :
    isqrtBits n i r * isqrtBits n i r ≤ n ∧ n < (isqrtBits n i r + 1) * (isqrtBits n i r + 1) := by
  induction i generalizing r with
  | zero => exact ⟨low, high⟩
  | succ i ih =>
    rw [isqrtBits]
    split
    · next fits => exact ih _ fits (by rwa [add_assoc, ← two_mul, ← pow_succ'])
    · next past => exact ih _ low (not_le.mp past)

theorem isqrt_spec (n : Nat) : isqrt n * isqrt n ≤ n ∧ n < (isqrt n + 1) * (isqrt n + 1) := by
  refine isqrtBits_spec n _ 0 (Nat.zero_le n) ?_
  rw [zero_add, ← pow_add]
  exact Nat.lt_log2_self.trans_le (Nat.pow_le_pow_right (by decide) (by omega))

/-- The root of an integer that lies below a real number by less than one is the truncated root of the real number. -/
theorem Truncates.sqrt {n : Nat} {v : ℝ} (low : n ≤ v) (high : v < n + 1) {sticky : Bool}
    (marked : sticky = true ↔ v ≠ isqrt n * isqrt n) (e : Int) : Truncates (isqrt n) e sticky (√v * 2 ^ e) := by
  obtain ⟨below, above⟩ := isqrt_spec n
  have rootPos : (0 : ℝ) ≤ isqrt n := Nat.cast_nonneg _
  have below' : (isqrt n : ℝ) * isqrt n ≤ n := by exact_mod_cast below
  have above' : (n : ℝ) + 1 ≤ (isqrt n + 1) * (isqrt n + 1) := by exact_mod_cast above
  refine truncates_mul.mpr ⟨?_, ?_, ?_⟩
  · exact Real.le_sqrt_of_sq_le (by nlinarith)
  · rw [Real.sqrt_lt' (by linarith)]
    nlinarith
  · rw [marked, ne_eq, ne_eq, Real.sqrt_eq_iff_mul_self_eq (by linarith [Nat.cast_nonneg (α := ℝ) n]) rootPos]

/-- A square of more than twice the bits has a root of more than the bits. -/
theorem le_log2_isqrt {prec n : Nat} (bits : 2 ^ (2 * prec) ≤ n) : prec ≤ (isqrt n).log2 := by
  obtain ⟨-, above⟩ := isqrt_spec n
  have root : 2 ^ prec ≤ isqrt n := by
    by_contra short
    have : isqrt n + 1 ≤ 2 ^ prec := by omega
    have := Nat.mul_le_mul this this
    rw [← pow_add, ← two_mul] at this
    omega
  exact (Nat.le_log2 (by have := Nat.two_pow_pos prec; omega)).mpr root

/-- Half of an even exponent is the exponent of the root. -/
theorem sqrt_zpow_two_mul (h : Int) : √((2 : ℝ) ^ (2 * h)) = 2 ^ h := by
  rw [two_mul, zpow_add₀ two_ne_zero, Real.sqrt_mul_self (by positivity)]

theorem sqrtFinite_truncates (prec : Nat) {m : Nat} (e : Int) (nonzero : m ≠ 0) :
    ∃ q e' sticky, sqrtFinite prec m e = .fin false q e' sticky ∧ prec ≤ q.log2 ∧
      Truncates q e' sticky √(m * (2 : ℝ) ^ e) := by
  obtain ⟨t, places⟩ : ∃ t, t = 2 * prec + 4 + (e % 2).toNat := ⟨_, rfl⟩
  obtain ⟨h, even⟩ : ∃ h, e - t = 2 * h := ⟨(e - t) / 2, by omega⟩
  refine ⟨isqrt (m * 2 ^ t), h, isqrt (m * 2 ^ t) * isqrt (m * 2 ^ t) != m * 2 ^ t, ?_, ?_, ?_⟩
  · rw [sqrtFinite, ← places, even, Int.mul_ediv_cancel_left _ two_ne_zero]
  · refine le_log2_isqrt ?_
    calc 2 ^ (2 * prec) ≤ 2 ^ t := Nat.pow_le_pow_right (by decide) (by omega)
      _ ≤ m * 2 ^ t := Nat.le_mul_of_pos_left _ (Nat.pos_of_ne_zero nonzero)
  · have root : √(m * (2 : ℝ) ^ e) = √(m * 2 ^ t : Nat) * 2 ^ h := by
      rw [show e = t + 2 * h by omega, zpow_add₀ two_ne_zero, zpow_natCast, ← mul_assoc, Real.sqrt_mul (by positivity),
        sqrt_zpow_two_mul, Nat.cast_mul, Nat.cast_pow, Nat.cast_two]
    rw [root]
    refine .sqrt le_rfl (lt_add_one _) ?_ h
    rw [bne_iff_ne, ne_comm]
    exact_mod_cast Iff.rfl

theorem rsqrtFinite_truncates (prec : Nat) {m : Nat} (e : Int) (nonzero : m ≠ 0) :
    ∃ q e' sticky, rsqrtFinite prec m e = .fin false q e' sticky ∧ prec ≤ q.log2 ∧
      Truncates q e' sticky (1 / √(m * (2 : ℝ) ^ e)) := by
  obtain ⟨t, places⟩ : ∃ t, t = 2 * prec + 6 + m.log2 + ((e + (2 * prec + 6 + m.log2 : Nat)) % 2).toNat := ⟨_, rfl⟩
  obtain ⟨h, even⟩ : ∃ h, -e - t = 2 * h := ⟨(-e - t) / 2, by omega⟩
  have mPos : 0 < m := Nat.pos_of_ne_zero nonzero
  have mPos' : (0 : ℝ) < m := Nat.cast_pos.mpr mPos
  refine ⟨isqrt (2 ^ t / m), h, isqrt (2 ^ t / m) * isqrt (2 ^ t / m) * m != 2 ^ t, ?_, ?_, ?_⟩
  · rw [rsqrtFinite, ← places, even, Int.mul_ediv_cancel_left _ two_ne_zero]
  · refine le_log2_isqrt ?_
    rw [Nat.le_div_iff_mul_le mPos]
    calc 2 ^ (2 * prec) * m ≤ 2 ^ (2 * prec) * 2 ^ (m.log2 + 1) := Nat.mul_le_mul_left _ Nat.lt_log2_self.le
      _ ≤ 2 ^ t := by rw [← pow_add]; exact Nat.pow_le_pow_right (by decide) (by omega)
  · have root : 1 / √(m * (2 : ℝ) ^ e) = √((2 ^ t : Nat) / m) * 2 ^ h := by
      rw [← sqrt_zpow_two_mul h, ← Real.sqrt_mul (by positivity), ← Real.sqrt_one, ← Real.sqrt_div zero_le_one, ← even,
        zpow_sub₀ two_ne_zero, zpow_neg, zpow_natCast]
      congr 1
      push_cast
      field_simp
    obtain ⟨low, high, -⟩ := Truncates.div (2 ^ t) mPos 0
    rw [zpow_zero, mul_one, mul_one] at low high
    rw [root]
    refine .sqrt low high ?_ h
    rw [bne_iff_ne, ne_eq, ne_eq, div_eq_iff mPos'.ne', eq_comm]
    exact_mod_cast Iff.rfl

/-! ## Approximations (R409, R410) -/

/-- An error that is allowed, in half units of the last place, keeps the significand `c` within its bound of the real number that
is truncated, gives it no fewer bits than the precision, less one, and no odd half unit where it has more. -/
theorem errorAllowed_spec {prec ulp q j : Nat} {sticky : Bool} {d : Int} {u : ℝ} (low : q ≤ u) (high : u < q + 1)
    (marked : sticky = true ↔ u ≠ q) (allowed : errorAllowed prec ulp q (j + 1) sticky d = true) :
    let c : Int := 2 * (q / 2 ^ (j + 1) : Nat) + d
    |(c : ℝ) - u / 2 ^ j| ≤ 2 * ulp ∧ (2 ^ (prec - 1) : Nat) ≤ c ∧ (c < (2 ^ prec : Nat) ∨ c % 2 = 0) := by
  intro c
  have unit : (0 : ℝ) < 2 ^ j := by positivity
  have parts : (q : ℝ) = (q / 2 ^ (j + 1) : Nat) * (2 * 2 ^ j) + (q % 2 ^ (j + 1) : Nat) := by
    rw [← pow_succ']
    exact_mod_cast (Nat.div_add_mod' q (2 ^ (j + 1))).symm
  simp only [errorAllowed, Nat.add_sub_cancel, Bool.and_eq_true, decide_eq_true_eq, Bool.or_eq_true, beq_iff_eq] at allowed
  obtain ⟨⟨⟨above, below⟩, least⟩, even⟩ := allowed
  refine ⟨?_, least, even⟩
  obtain ⟨z, rfl⟩ : ∃ z, u = z * 2 ^ j := ⟨u / 2 ^ j, by field_simp⟩
  have cast : (c : ℝ) = 2 * (q / 2 ^ (j + 1) : Nat) + d := by
    rw [Int.cast_add, Int.cast_mul, Int.cast_natCast, Int.cast_two]
  rw [cast, mul_div_cancel_right₀ _ unit.ne']
  generalize (q / 2 ^ (j + 1) : Nat) = a, (q % 2 ^ (j + 1) : Nat) = r at *
  have above' : ((d : ℝ) - 2 * ulp) * 2 ^ j ≤ r := by exact_mod_cast above
  have below' : z * 2 ^ j - a * (2 * 2 ^ j) ≤ (d + 2 * ulp) * 2 ^ j := by
    cases sticky with
    | true =>
      have : (r : ℝ) + 1 ≤ (d + 2 * ulp) * 2 ^ j := by exact_mod_cast of_decide_eq_true below
      linarith
    | false =>
      have : (r : ℝ) ≤ (d + 2 * ulp) * 2 ^ j := by exact_mod_cast of_decide_eq_true below
      have : z * 2 ^ j = q := not_not.mp (mt marked.mpr Bool.false_ne_true)
      linarith
  rw [abs_le]
  constructor <;> refine le_of_mul_le_mul_right ?_ unit <;> linarith

/-- No error is always allowed. -/
theorem errorAllowed_zero {prec ulp q j : Nat} (positive : 0 < prec) (places : q.log2 = prec + j) (bound : 0 < ulp)
    (sticky : Bool) : errorAllowed prec ulp q (j + 1) sticky 0 = true := by
  have double : 2 ^ (j + 1) = 2 * 2 ^ j := pow_succ' 2 j
  have unit := Nat.two_pow_pos j
  have rest : q % 2 ^ (j + 1) < 2 * 2 ^ j := double ▸ Nat.mod_lt q (Nat.two_pow_pos _)
  have within : 2 * 2 ^ j ≤ 2 * ulp * 2 ^ j := Nat.mul_le_mul_right _ (Nat.le_mul_of_pos_right 2 bound)
  have least : 2 ^ (prec - 1) ≤ q / 2 ^ (j + 1) := by
    rw [Nat.le_div_iff_mul_le (Nat.two_pow_pos _), ← pow_add]
    calc 2 ^ (prec - 1 + (j + 1)) ≤ 2 ^ q.log2 := Nat.pow_le_pow_right (by decide) (by omega)
      _ ≤ q := Nat.log2_self_le (by rintro rfl; simp at places; omega)
  have past : ((q % 2 ^ (j + 1) : Nat) : Int) < 2 * ulp * (2 ^ j : Nat) := by exact_mod_cast rest.trans_le within
  simp only [errorAllowed, Nat.add_sub_cancel, zero_sub, zero_add, add_zero, Int.mul_emod_right, beq_self_eq_true, Bool.or_true,
    Bool.and_true, past, past.le, decide_true, ite_self, Bool.and_eq_true, decide_eq_true_eq]
  constructor
  · have : (0 : Int) ≤ 2 * ulp * (2 ^ j : Nat) := by positivity
    rw [neg_mul]
    omega
  · exact_mod_cast least.trans (Nat.le_mul_of_pos_left _ two_pos)

namespace FloatFormat
variable {f : FloatFormat}

/-- A significand rounded toward zero is kept where it has no more bits than the precision, or one more that is zero; and else it
is cut to one that has at least two more. -/
theorem round_towardZero (proper : f.Proper) (draw : Nat) (flush neg : Bool) {c : Nat} {e : Int} (nonzero : c ≠ 0)
    (even : c < 2 ^ f.prec ∨ c % 2 = 0) (normal : f.emin ≤ e + c.log2) (within : c * (2 : ℝ) ^ e < 2 ^ (f.emax + 1)) :
    let r := f.round ⟨1, flush, draw⟩ neg c e false
    ∃ kept ≤ c, (kept = c ∨ 2 ^ (f.prec + 1) ≤ kept) ∧ (f.value r.value).Num neg (signed neg (kept * (2 : ℝ) ^ e)) ∧
      (r.raised = 0 ∨ r.raised = flagI) ∧ r.e = false := by
  have := proper.prec
  intro r
  obtain ⟨-, -, least, most⟩ := significand_spec proper (.exact c e) nonzero nofun 1 neg
  have rounded : r = f.assemble 1 neg (e + c.log2) (f.significand 1 neg c false) := round_of_normal normal
  obtain ⟨kept, below, cut, same⟩ : ∃ kept ≤ c, (kept = c ∨ 2 ^ (f.prec + 1) ≤ kept) ∧
      (f.significand 1 neg c false).1 * (2 : ℝ) ^ (e + c.log2 - (f.prec - 1 : Nat)) = kept * 2 ^ e := by
    by_cases short : c.log2 + 1 ≤ f.prec
    · obtain ⟨z, places⟩ := Nat.exists_eq_add_of_le short
      refine ⟨c, le_rfl, .inl rfl, ?_⟩
      rw [significand, if_pos short, show f.prec - (c.log2 + 1) = z by omega,
        show e + c.log2 - (f.prec - 1 : Nat) = e - z by omega, zpow_sub₀ two_ne_zero, zpow_natCast]
      push_cast
      field_simp
    · obtain ⟨k, places⟩ := Nat.exists_eq_add_of_lt (not_le.mp short)
      have truncated : (f.significand 1 neg c false).1 = c / 2 ^ (k + 1) := by
        rw [significand, if_neg short, show c.log2 + 1 - f.prec = k + 1 by omega, roundShift_towardZero]
      rw [truncated] at least
      refine ⟨c / 2 ^ (k + 1) * 2 ^ (k + 1), Nat.div_mul_le_self .., ?_, ?_⟩
      · rcases Nat.eq_zero_or_pos k with rfl | more
        · have : 2 ^ f.prec ≤ c := (show c.log2 = f.prec by omega) ▸ Nat.log2_self_le nonzero
          omega
        · right
          calc 2 ^ (f.prec + 1) ≤ 2 ^ (f.prec - 1) * 2 ^ (k + 1) := by
                rw [← pow_add]
                exact Nat.pow_le_pow_right (by decide) (by omega)
            _ ≤ _ := Nat.mul_le_mul_right _ least
      · rw [truncated, show e + c.log2 - (f.prec - 1 : Nat) = (k + 1 : Nat) + e by omega, zpow_add₀ two_ne_zero, zpow_natCast]
        push_cast
        ring
  obtain ⟨-, value⟩ := assemble_spec (lead := e + c.log2) proper least most normal 1 neg (f.significand 1 neg c false).2
  rw [same, Prod.mk.eta, ← rounded] at value
  obtain ⟨number, raised, noE⟩ := value (lt_of_le_of_lt (by gcongr) within)
  refine ⟨kept, below, cut, number, ?_, noE⟩
  rw [raised]
  split
  · exact .inr rfl
  · exact .inl rfl

/-- A significand near a magnitude, in half units of the last place, is as near to it when it is rounded toward zero. -/
theorem round_approximates (proper : f.Proper) (mode : FloatMode) {ulp : Nat} (few : ulp ≤ 65536) (neg : Bool) {c : Nat} {v : ℝ}
    {e : Int} (close : |c - v| ≤ 2 * ulp) (least : 2 ^ (f.prec - 1) ≤ c) (even : c < 2 ^ f.prec ∨ c % 2 = 0)
    (low : 2 ^ f.prec ≤ v) (high : v < 2 ^ (f.prec + 1)) (above : f.emin < e + f.prec) (below : e + f.prec < f.emax) :
    Approximates f ulp (signed neg (v * 2 ^ e)) (f.round ⟨1, mode.flush, mode.draws⟩ neg c e false) := by
  have := proper.prec
  have half : (0 : ℝ) < 2 ^ e := by positivity
  obtain ⟨-, cBelow⟩ := abs_le.mp close
  have within : c * (2 : ℝ) ^ e < 2 ^ (f.emax + 1) := by
    have few' : (ulp : ℝ) ≤ 65536 := by exact_mod_cast few
    have room : (2 : ℝ) ^ 17 ≤ 2 ^ (f.prec + 1) := pow_le_pow_right₀ one_le_two (by omega)
    have short : (c : ℝ) < 2 ^ (f.prec + 2) := by rw [pow_succ]; linarith
    calc c * (2 : ℝ) ^ e < 2 ^ (f.prec + 2) * 2 ^ e := by gcongr
      _ = 2 ^ ((f.prec + 2 : Nat) + e) := by rw [zpow_add₀ two_ne_zero, zpow_natCast]
      _ ≤ 2 ^ (f.emax + 1) := zpow_le_zpow_right₀ one_le_two (by omega)
  have nonzero : c ≠ 0 := by have := Nat.two_pow_pos (f.prec - 1); omega
  have lead : f.prec - 1 ≤ c.log2 := (Nat.le_log2 nonzero).mpr least
  obtain ⟨kept, cut, whole, number, raised, noE⟩ :=
    round_towardZero proper mode.draws mode.flush neg nonzero even (by omega) within
  have keptClose : |(kept : ℝ) - v| ≤ 2 * ulp := by
    rcases whole with rfl | long
    · exact close
    · have : (2 : ℝ) ^ (f.prec + 1) ≤ kept := by exact_mod_cast long
      have : (kept : ℝ) ≤ c := by exact_mod_cast cut
      rw [abs_of_pos (by linarith)]
      linarith
  have size : |signed neg (v * 2 ^ e)| = v * 2 ^ e := by
    rw [abs_signed, abs_of_nonneg (mul_nonneg ((by positivity : (0 : ℝ) ≤ 2 ^ f.prec).trans low) half.le)]
  refine ⟨raised, noE, neg, _, f.prec + e, number, ?_, ?_, ?_⟩
  · rw [size, zpow_add₀ two_ne_zero, zpow_natCast]
    gcongr
  · rw [size, add_right_comm, ← Nat.cast_succ, zpow_add₀ two_ne_zero, zpow_natCast]
    gcongr
  · calc |signed neg (kept * (2 : ℝ) ^ e) - signed neg (v * 2 ^ e)| = |(kept : ℝ) - v| * 2 ^ e := by
          rw [abs_signed_sub, ← sub_mul, abs_mul, abs_of_pos half]
      _ ≤ 2 * ulp * 2 ^ e := by gcongr
      _ = ulp * 2 ^ (f.prec + e - f.prec + 1) := by
          rw [add_sub_cancel_left, zpow_add_one₀ two_ne_zero]
          ring

/-- Inexact may be raised besides. -/
theorem approximates_inexact {ulp : Nat} {x : ℝ} {r : FloatResult} (approximates : Approximates f ulp x r) :
    Approximates f ulp x { r with raised := r.raised ||| flagI } := by
  obtain ⟨raised, noE, value⟩ := approximates
  exact ⟨.inr (by rcases raised with none | inexact <;> simp [*]), noE, value⟩

/-- An approximated result is a significand within the bound of its error, rounded toward zero; Inexact may be raised besides. -/
theorem approximate_fin (proper : f.Proper) (mode : FloatMode) (site : FreeSite) {ulp : Nat} (some : 0 < ulp) (neg : Bool)
    {q j : Nat} (e : Int) {sticky : Bool} {u : ℝ} (places : q.log2 = f.prec + j) (low : q ≤ u) (high : u < q + 1)
    (marked : sticky = true ↔ u ≠ q) :
    ∃ c : Nat, |c - u / 2 ^ j| ≤ 2 * ulp ∧ 2 ^ (f.prec - 1) ≤ c ∧ (c < 2 ^ f.prec ∨ c % 2 = 0) ∧
      let r := f.round ⟨1, mode.flush, mode.draws⟩ neg c (e + j) false
      f.approximate mode site ulp (.fin neg q e sticky) = r ∨
        f.approximate mode site ulp (.fin neg q e sticky) = { r with raised := r.raised ||| flagI } := by
  have := proper.prec
  have nonzero : q ≠ 0 := by rintro rfl; simp at places; omega
  rw [approximate, if_neg nonzero, show q.log2 + 1 - f.prec = j + 1 by omega]
  generalize choice : (if errorAllowed f.prec ulp q (j + 1) sticky (Config.freeInt site mode.draws) = true then
    Config.freeInt site mode.draws else 0) = d
  have allowed : errorAllowed f.prec ulp q (j + 1) sticky d = true := by
    rw [← choice]
    split
    · assumption
    · exact errorAllowed_zero (by omega) places some sticky
  obtain ⟨close, least, even⟩ := errorAllowed_spec low high marked allowed
  obtain ⟨c, natural⟩ := Int.eq_ofNat_of_zero_le ((Int.natCast_nonneg _).trans least)
  rw [natural] at close least even
  dsimp only
  rw [choice, natural, Int.toNat_natCast, show e + (j + 1 : Nat) - 1 = e + j by omega]
  refine ⟨c, by exact_mod_cast close, by exact_mod_cast least, by exact_mod_cast even, ?_⟩
  split
  · exact .inl rfl
  · split
    · exact .inr rfl
    · exact .inl rfl

/-- An approximated magnitude away from the ends of the exponent range keeps to the bound of its error. -/
theorem approximate_spec (proper : f.Proper) (mode : FloatMode) (site : FreeSite) {ulp : Nat} (some : 0 < ulp) (few : ulp ≤ 65536)
    (neg : Bool) {q : Nat} {e : Int} {sticky : Bool} {y : ℝ} (truncates : Truncates q e sticky y) (wide : f.prec ≤ q.log2)
    (above : (2 : ℝ) ^ (f.emin + 1) ≤ y) (below : y < 2 ^ (f.emax - 1)) :
    Approximates f ulp (signed neg y) (f.approximate mode site ulp (.fin neg q e sticky)) := by
  have := proper.prec
  have nonzero : q ≠ 0 := by rintro rfl; simp at wide; omega
  obtain ⟨j, places⟩ := Nat.exists_eq_add_of_le wide
  obtain ⟨first, last⟩ := truncates.lead_bounds nonzero
  have emin : f.emin + 1 < e + q.log2 + 1 := (zpow_lt_zpow_iff_right₀ one_lt_two).mp (above.trans_lt last)
  have emax : e + q.log2 < f.emax - 1 := (zpow_lt_zpow_iff_right₀ one_lt_two).mp (first.trans_lt below)
  obtain ⟨v, rfl⟩ : ∃ v, y = v * 2 ^ (e + j) := ⟨y / 2 ^ (e + j), by field_simp⟩
  have half : (0 : ℝ) < 2 ^ (e + j) := by positivity
  have scale : v * (2 : ℝ) ^ (e + j) = v * 2 ^ j * 2 ^ e := by
    rw [add_comm, zpow_add₀ two_ne_zero, zpow_natCast, mul_assoc]
  rw [show e + q.log2 = f.prec + (e + j) by omega, zpow_add₀ two_ne_zero, zpow_natCast] at first
  rw [show e + q.log2 + 1 = (f.prec + 1 : Nat) + (e + j) by omega,
    zpow_add₀ two_ne_zero (f.prec + 1 : Nat), zpow_natCast] at last
  obtain ⟨low, high, marked⟩ := truncates_mul.mp (scale ▸ truncates)
  obtain ⟨c, close, least, even, result⟩ := approximate_fin proper mode site some neg e places low high marked
  rw [mul_div_cancel_right₀ _ (by positivity)] at close
  have approximates := round_approximates proper mode few neg close least even (le_of_mul_le_mul_right first half)
    (lt_of_mul_lt_mul_right last half.le) (by omega : f.emin < e + j + f.prec) (by omega)
  rcases result with same | more
  · rwa [same]
  · rw [more]
    exact approximates_inexact approximates

end FloatFormat

end Sys2Proof.Machine

/-! PROOFS. The delivered value of each floating-point operation (R402 to R419, R428, R429): operands that are no number, and what
the sum, product, quotient, root or conversion of two numbers or infinities delivers. -/

namespace Sys2Proof.Machine
open Sys2Proof

/-! ## The values of words (R25) -/

namespace FloatFormat
variable {f : FloatFormat}

/-- The highest exponent is that of the infinities and of the NaNs, signaling ones by their top fraction bit. -/
theorem value_of_exponent_last (proper : f.Proper) {w : Word} (last : f.exponent w = 2 ^ f.expBits - 1) :
    f.value w = if f.fraction w = 0 then .inf (f.sign w) else .nan (w.getLsbD (f.prec - 2)) := by
  have topBit : (f.fraction w / 2 ^ (f.prec - 2) == 1) = w.getLsbD (f.prec - 2) := by
    have := proper.prec
    rw [fraction, show f.prec - 1 = f.prec - 2 + 1 by omega, pow_succ, Nat.mod_mul_right_div_self, ← BitVec.testBit_toNat,
      Nat.testBit_eq_decide_div_mod_eq]
    rfl
  simp only [value, if_pos last, topBit]

theorem value_of_exponent_zero (proper : f.Proper) {w : Word} (first : f.exponent w = 0) :
    f.value w = .fin (f.sign w) (f.fraction w) (f.emin - (f.prec - 1 : Nat)) := by
  have := proper.two_pow_expBits
  simp only [value]
  rw [if_neg (by omega), if_pos first]

theorem value_of_exponent_normal {w : Word} (nonzero : 0 < f.exponent w) (below : f.exponent w < 2 ^ f.expBits - 1) :
    f.value w = .fin (f.sign w) (2 ^ (f.prec - 1) + f.fraction w) (f.exponent w - f.bias - (f.prec - 1 : Nat)) := by
  simp only [value]
  rw [if_neg below.ne, if_neg nonzero.ne', Nat.add_comm]

/-! ## Operands (R418) -/

theorem operand_of_flushed {mode : FloatMode} {w : Word} (denormal : f.denormal w = true) (flush : mode.flush = true) :
    f.operand mode w = .fin (f.sign w) 0 0 := by
  rw [operand, denormal, flush]
  rfl

theorem operand_of_kept {mode : FloatMode} {w : Word} (kept : f.denormal w = false ∨ mode.flush = false) :
    f.operand mode w = f.value w := by
  rw [operand]
  rcases kept with h | h <;> rw [h] <;> simp

/-- An operand that does not raise E is a zero or lies in the normal range. -/
theorem operand_bounds (proper : f.Proper) {mode : FloatMode} {w : Word} (usable : mode.flush = true ∨ f.denormal w = false)
    {neg : Bool} {x : ℝ} (number : (f.operand mode w).Num neg x) (nonzero : x ≠ 0) :
    (2 : ℝ) ^ f.emin ≤ |x| ∧ |x| < 2 ^ (f.emax + 1) := by
  have size := proper.two_pow_expBits
  by_cases flushed : f.denormal w = true
  · rw [operand_of_flushed flushed (usable.resolve_right (by simp [flushed])), FloatVal.num_fin_iff] at number
    simp [number] at nonzero
  rw [operand_of_kept (.inl (Bool.eq_false_iff.mpr flushed))] at number
  by_cases last : f.exponent w = 2 ^ f.expBits - 1
  · rw [value_of_exponent_last proper last] at number
    split at number
    · exact absurd number FloatVal.not_num_inf
    · exact absurd number FloatVal.not_num_nan
  by_cases first : f.exponent w = 0
  · rw [value_of_exponent_zero proper first, FloatVal.num_fin_iff] at number
    have : f.fraction w = 0 := by simpa [denormal, first] using flushed
    simp [number, this] at nonzero
  have bound : f.exponent w < 2 ^ f.expBits := Nat.mod_lt _ (Nat.two_pow_pos _)
  have fractionBound : f.fraction w < 2 ^ (f.prec - 1) := Nat.mod_lt _ (Nat.two_pow_pos _)
  rw [value_of_exponent_normal (by omega) (by omega), FloatVal.num_fin_iff] at number
  rw [number.2, abs_signed, abs_of_nonneg (by positivity)]
  have width := proper.two_pow_prec
  obtain ⟨low, high⟩ := significand_bounds proper (Nat.le_add_right _ (f.fraction w)) (by omega) (f.exponent w - f.bias)
  refine ⟨le_trans (zpow_le_zpow_right₀ one_le_two ?_) low, high.trans_le (zpow_le_zpow_right₀ one_le_two ?_)⟩
  · rw [emin]; omega
  · rw [emax]; omega

end FloatFormat

/-! ## Operands that are no number (R418, R419) -/

theorem FloatVal.isSignaling_iff {v : FloatVal} : v.isSignaling = true ↔ v = .nan true := by
  cases v <;> simp [isSignaling]

theorem FloatVal.isNan_of_isSignaling {v : FloatVal} (signaling : v.isSignaling = true) : v.isNan = true := by
  rw [isSignaling_iff.mp signaling]
  rfl

/-- What every operation does about denormalized operands and NaNs, given what its results for them are. -/
theorem arithmetic_floatOp {mode : FloatMode} {src : FloatFormat} {ws : List Word} {r invalid quiet : FloatResult}
    {nan : BitVec 5 → FloatResult → Prop} {own : FloatResult → Prop} (invalidNan : nan flagV invalid) (quietNan : nan 0 quiet)
    (result : mode.flush = true ∨ (∀ w ∈ ws, src.denormal w = false) → own r) :
    Arithmetic src mode ws (floatOp mode src ws r invalid quiet) nan own := by
  have some : ws.any src.denormal = true ↔ ∃ w ∈ ws, src.denormal w = true := List.any_eq_true
  constructor
  · intro kept denormal
    rw [floatOp, some.mpr denormal, kept]
    exact ⟨rfl, rfl⟩
  · intro usable
    refine ⟨if ws.any (fun w => (src.value w).isSignaling) then invalid
      else if ws.any (fun w => (src.value w).isNan) then quiet else r, ?_, ?_, ?_, ?_⟩
    · by_cases denormal : ws.any src.denormal = true
      · have flush : mode.flush = true := usable.resolve_right fun none => by
          obtain ⟨w, among, found⟩ := some.mp denormal
          simp [none w among] at found
        rw [floatOp, denormal, flush, if_pos (some.mp denormal)]
        rfl
      · rw [floatOp, Bool.eq_false_iff.mpr denormal, if_neg (mt some.mpr denormal)]
        exact congrArg (FloatResult.mk _ · _) BitVec.or_zero.symm
    · rintro ⟨w, among, signaling⟩
      rw [if_pos (List.any_eq_true.mpr ⟨w, among, by rw [signaling]; rfl⟩)]
      exact invalidNan
    · rintro none ⟨w, among, still⟩
      rw [if_neg fun found => ?_, if_pos (List.any_eq_true.mpr ⟨w, among, by rw [still]; rfl⟩)]
      · exact quietNan
      · obtain ⟨w, among, signaling⟩ := List.any_eq_true.mp found
        exact none w among (FloatVal.isSignaling_iff.mp signaling)
    · intro numbers
      have noNan : ¬ws.any (fun w => (src.value w).isNan) = true := fun found => by
        obtain ⟨w, among, nan⟩ := List.any_eq_true.mp found
        simp [numbers w among] at nan
      have noSignaling : ¬ws.any (fun w => (src.value w).isSignaling) = true := fun found => by
        obtain ⟨w, among, signaling⟩ := List.any_eq_true.mp found
        exact noNan (List.any_eq_true.mpr ⟨w, among, FloatVal.isNan_of_isSignaling signaling⟩)
      rw [if_neg noSignaling, if_neg noNan]
      exact result usable

/-- Operations with a floating-point result deliver a quiet NaN. -/
theorem arithmetic_floatArith {mode : FloatMode} {src dst : FloatFormat} (proper : dst.Proper) {ws : List Word} {r : FloatResult}
    {own : FloatResult → Prop} (result : mode.flush = true ∨ (∀ w ∈ ws, src.denormal w = false) → own r) :
    Arithmetic src mode ws (floatArith mode src dst ws r) (fun x d => GivesNan dst d x) own :=
  arithmetic_floatOp (dst.deliver_invalid proper mode) (dst.deliver_nan proper mode) result

/-! ## Numbers and infinities -/

/-- Infinity times a number is invalid for a zero, and else infinity (R404). -/
theorem mulExact_inf {v w : FloatVal} {a b : Bool} {y : ℝ} (factors : (v = .inf a ∧ w.Num b y) ∨ (w = .inf a ∧ v.Num b y)) :
    mulExact v w = if y = 0 then .invalid else .inf (a ^^ b) := by
  rcases factors with ⟨rfl, number⟩ | ⟨rfl, number⟩
  · obtain ⟨m, e, rfl, rfl⟩ := FloatVal.num_iff.mp number
    simp only [mulExact, signed_scaled_eq_zero]
  · obtain ⟨m, e, rfl, rfl⟩ := FloatVal.num_iff.mp number
    simp only [mulExact, signed_scaled_eq_zero, Bool.xor_comm]

/-- A quotient by a number, by whether it and the dividend are zero (R405). -/
theorem divExact_of_zero_divisor {prec : Nat} {v w : FloatVal} {a b : Bool} {x : ℝ} (dividend : v.Num a x) (divisor : w.Num b 0) :
    divExact prec v w = if x = 0 then .invalid else .divZero (a ^^ b) := by
  obtain ⟨am, ae, rfl, rfl⟩ := FloatVal.num_iff.mp dividend
  obtain ⟨bm, be, rfl, zero⟩ := FloatVal.num_iff.mp divisor
  simp only [divExact, signed_scaled_eq_zero, signed_scaled_eq_zero.mp zero.symm, if_true]

theorem divExact_standsFor {prec : Nat} {v w : FloatVal} {a b : Bool} {x y : ℝ} (dividend : v.Num a x) (divisor : w.Num b y)
    (nonzero : y ≠ 0) : (divExact prec v w).StandsFor prec (x / y) (a ^^ b) := by
  obtain ⟨am, ae, rfl, rfl⟩ := FloatVal.num_iff.mp dividend
  obtain ⟨bm, be, rfl, rfl⟩ := FloatVal.num_iff.mp divisor
  rw [ne_eq, signed_scaled_eq_zero] at nonzero
  rw [signed_div_signed, divExact, if_neg nonzero]
  split
  · next zero => simpa [zero] using Exact.standsFor_fin prec (a ^^ b) 0 0
  · next some =>
    obtain ⟨q, e, sticky, quotient, wide, truncates⟩ := divFinite_truncates prec ae be some nonzero
    rw [quotient]
    exact ⟨_, rfl, truncates, fun _ => wide, fun _ => rfl⟩

theorem recipUlp_le : Config.recipUlp ≤ 65536 := by
  have : Config.recipUlpFree % 65536 < 65536 := Nat.mod_lt _ (by decide)
  rw [Config.recipUlp]
  omega

theorem rsqrtUlp_le : Config.rsqrtUlp ≤ 65536 := by
  have : Config.rsqrtUlpFree % 65536 < 65536 := Nat.mod_lt _ (by decide)
  rw [Config.rsqrtUlp]
  omega

/-- The reciprocal root of a normal number is far from the ends of the exponent range. -/
theorem one_div_sqrt_bounds {f : FloatFormat} (proper : f.Proper) {x : ℝ} (above : (2 : ℝ) ^ f.emin ≤ x)
    (below : x < 2 ^ (f.emax + 1)) : (2 : ℝ) ^ (f.emin + 1) ≤ 1 / √x ∧ 1 / √x < 2 ^ (f.emax - 1) := by
  have := proper.bias_ge
  rw [FloatFormat.emin] at above ⊢
  rw [FloatFormat.emax] at below ⊢
  have rootPos : 0 < √x := Real.sqrt_pos.mpr ((by positivity : (0 : ℝ) < 2 ^ (1 - f.bias : ℤ)).trans_le above)
  constructor
  · have small : √x ≤ 2 ^ (f.bias - 2 : ℤ) := by
      rw [← sqrt_zpow_two_mul]
      exact Real.sqrt_le_sqrt (below.le.trans (zpow_le_zpow_right₀ one_le_two (by omega)))
    rw [le_div_iff₀ rootPos]
    calc (2 : ℝ) ^ (1 - f.bias + 1 : ℤ) * √x ≤ 2 ^ (1 - f.bias + 1 : ℤ) * 2 ^ (f.bias - 2 : ℤ) := by gcongr
      _ = 1 := by rw [← zpow_add₀ two_ne_zero, show (1 - f.bias + 1 + (f.bias - 2) : ℤ) = 0 by ring, zpow_zero]
  · have big : 2 ^ (1 - f.bias : ℤ) < √x := by
      rw [← sqrt_zpow_two_mul]
      exact Real.sqrt_lt_sqrt (by positivity) ((zpow_lt_zpow_right₀ one_lt_two (by omega)).trans_le above)
    rw [div_lt_iff₀ rootPos]
    calc (1 : ℝ) = 2 ^ (f.bias - 1 : ℤ) * 2 ^ (1 - f.bias : ℤ) := by
          rw [← zpow_add₀ two_ne_zero, show (f.bias - 1 + (1 - f.bias) : ℤ) = 0 by ring, zpow_zero]
      _ < 2 ^ (f.bias - 1 : ℤ) * √x := by gcongr

section
variable {f : FloatFormat} (proper : f.Proper) (mode : FloatMode)
include proper

/-- Sums (R402, R403). -/
theorem deliver_addExact (v w : FloatVal) : Sums f mode v w (f.deliver mode (addExact mode.rm v w)) := by
  refine ⟨?_, ?_, ?_, ?_⟩
  · rintro a b rfl rfl
    rw [addExact]
    refine ⟨fun same => ?_, fun differ => ?_⟩
    · rw [if_pos same]
      exact f.deliver_inf proper mode a
    · rw [if_neg differ]
      exact f.deliver_invalid proper mode
  · rintro a b y rfl ⟨m, e, rfl, -⟩
    exact f.deliver_inf proper mode a
  · rintro a x b ⟨m, e, rfl, -⟩ rfl
    exact f.deliver_inf proper mode b
  · intro a x b y vNum wNum
    obtain ⟨am, ae, rfl, rfl⟩ := FloatVal.num_iff.mp vNum
    obtain ⟨bm, be, rfl, rfl⟩ := FloatVal.num_iff.mp wNum
    exact f.deliver_of_standsFor proper mode (addFinite_standsFor ..)

/-- Products (R404). -/
theorem deliver_mulExact (v w : FloatVal) : Multiplies f mode v w (f.deliver mode (mulExact v w)) := by
  refine ⟨?_, ?_, ?_⟩
  · rintro a b rfl rfl
    exact f.deliver_inf proper mode _
  · intro a b y factors
    rw [mulExact_inf factors]
    refine ⟨fun zero => ?_, fun nonzero => ?_⟩
    · rw [if_pos zero]
      exact f.deliver_invalid proper mode
    · rw [if_neg nonzero]
      exact f.deliver_inf proper mode _
  · intro a x b y vNum wNum
    obtain ⟨am, ae, rfl, rfl⟩ := FloatVal.num_iff.mp vNum
    obtain ⟨bm, be, rfl, rfl⟩ := FloatVal.num_iff.mp wNum
    exact f.deliver_of_standsFor proper mode (mul_standsFor ..)

/-- Quotients (R405). -/
theorem deliver_divExact (v w : FloatVal) : Divides f mode v w (f.deliver mode (divExact f.prec v w)) := by
  refine ⟨?_, ?_, ?_, ?_⟩
  · rintro a b rfl rfl
    exact f.deliver_invalid proper mode
  · rintro a b y rfl ⟨m, e, rfl, -⟩
    exact f.deliver_inf proper mode _
  · rintro a x b ⟨m, e, rfl, -⟩ rfl
    exact f.deliver_zero proper mode _ 0 false
  · intro a x b y vNum wNum
    refine ⟨?_, fun nonzero => f.deliver_of_standsFor proper mode (divExact_standsFor vNum wNum nonzero)⟩
    rintro rfl
    rw [divExact_of_zero_divisor vNum wNum]
    refine ⟨fun zero => ?_, fun nonzero => ?_⟩
    · rw [if_pos zero]
      exact f.deliver_invalid proper mode
    · rw [if_neg nonzero]
      exact f.deliver_divZero proper mode _

/-- Products plus a third value (R411, R412). -/
theorem deliver_fmaExact (v w z : FloatVal) : MultipliesAndAdds f mode v w z (f.deliver mode (fmaExact mode.rm v w z)) := by
  refine ⟨?_, ?_, ?_⟩
  · rintro a b y factors rfl
    rw [fmaExact, mulExact_inf factors, if_pos rfl]
    exact f.deliver_invalid proper mode
  · intro a b factors
    have product : mulExact v w = .inf (a ^^ b) := by
      rcases factors with ⟨rfl, rfl⟩ | ⟨y, nonzero, factors⟩
      · rfl
      · rw [mulExact_inf factors, if_neg nonzero]
    rw [fmaExact, product]
    obtain ⟨both, one, -, -⟩ := deliver_addExact proper mode (.inf (a ^^ b)) z
    refine ⟨fun c addend => ?_, fun c u addend => one _ c u rfl addend⟩
    obtain ⟨same, differ⟩ := both _ c rfl addend
    exact ⟨fun equal => equal ▸ same equal.symm, fun unequal => differ (Ne.symm unequal)⟩
  · intro a x b y vNum wNum
    obtain ⟨am, ae, rfl, rfl⟩ := FloatVal.num_iff.mp vNum
    obtain ⟨bm, be, rfl, rfl⟩ := FloatVal.num_iff.mp wNum
    rw [fmaExact, mulExact, signed_mul_scaled]
    obtain ⟨-, -, one, none⟩ := deliver_addExact proper mode (.fin (a ^^ b) (am * bm) (ae + be)) z
    refine ⟨fun c addend => one _ _ c (FloatVal.num_fin ..) addend, fun c u addend => ?_⟩
    have sign : (if (a ^^ b) = c then c else mode.rm == 3) = if (a ^^ b) = c then a ^^ b else mode.rm == 3 := by
      split
      · next same => exact same.symm
      · rfl
    rw [sign]
    exact none _ _ c u (FloatVal.num_fin ..) addend

/-- Square roots (R406). -/
theorem deliver_sqrtExact (v : FloatVal) : Roots f mode v (f.deliver mode (sqrtExact f.prec v)) := by
  refine ⟨?_, ?_, ?_, ?_⟩
  · rintro rfl
    exact f.deliver_inf proper mode false
  · rintro rfl
    exact f.deliver_invalid proper mode
  · intro x number nonzero
    obtain ⟨m, e, rfl, rfl⟩ := FloatVal.num_iff.mp number
    rw [sqrtExact, if_neg (mt signed_scaled_eq_zero.mpr nonzero)]
    exact f.deliver_invalid proper mode
  · intro a x number positive
    obtain ⟨m, e, rfl, rfl⟩ := FloatVal.num_iff.mp number
    rw [signed_scaled_eq_zero] at positive
    apply f.deliver_of_standsFor proper mode
    by_cases zero : m = 0
    · simpa [sqrtExact, zero] using Exact.standsFor_fin f.prec a 0 0
    · obtain rfl := positive.resolve_right zero
      obtain ⟨q, e', sticky, root, wide, truncates⟩ := sqrtFinite_truncates f.prec e zero
      rw [sqrtExact, if_neg zero, if_neg Bool.false_ne_true, root]
      exact ⟨_, rfl, truncates, fun _ => wide, fun _ => rfl⟩

/-- Reciprocals (R409). -/
theorem approximate_recip (v : FloatVal) : Reciprocates f v
    (f.approximate mode .recipError Config.recipUlp (divExact f.prec (.fin false 1 0) v)) := by
  have one : (FloatVal.fin false 1 0).Num false 1 := by simpa using FloatVal.num_fin false 1 0
  refine ⟨?_, ?_, ?_⟩
  · rintro a rfl
    rw [divExact, Bool.false_xor]
    exact f.deliver_zero proper mode a 0 false
  · intro a zero
    rw [divExact_of_zero_divisor one zero, if_neg one_ne_zero, Bool.false_xor]
    exact f.deliver_divZero proper mode a
  · intro a x number above below
    obtain ⟨m, e, rfl, rfl⟩ := FloatVal.num_iff.mp number
    have nonzero : m ≠ 0 := by
      rintro rfl
      have : (0 : ℝ) < 2 ^ (f.emin + 1) := by positivity
      simp at above
      linarith
    obtain ⟨q, e', sticky, quotient, wide, truncates⟩ := divFinite_truncates f.prec 0 e one_ne_zero nonzero
    have reciprocal : 1 / signed a (m * (2 : ℝ) ^ e) = signed a ((1 : Nat) * 2 ^ (0 : Int) / (m * 2 ^ e)) := by
      simpa using signed_div_signed false a 1 (m * (2 : ℝ) ^ e)
    rw [reciprocal, abs_signed, abs_of_nonneg (by positivity)] at above below
    rw [divExact, if_neg nonzero, if_neg one_ne_zero, quotient, reciprocal, Bool.false_xor]
    exact f.approximate_spec proper mode _ (Nat.le_add_right 1 _) recipUlp_le a truncates wide above below

/-- Reciprocal square roots (R410). -/
theorem approximate_rsqrt {v : FloatVal} (zeroSign : Bool)
    (bounds : ∀ x, v.Num false x → x ≠ 0 → (2 : ℝ) ^ f.emin ≤ |x| ∧ |x| < 2 ^ (f.emax + 1)) : RootReciprocates f v
    (f.approximate mode .rsqrtError Config.rsqrtUlp (rsqrtExact f.prec zeroSign v)) := by
  refine ⟨?_, ?_, ?_, ?_, ?_⟩
  · rintro rfl
    exact f.deliver_zero proper mode _ 0 false
  · rintro rfl
    exact f.deliver_invalid proper mode
  · intro a number
    obtain ⟨m, e, rfl, zero⟩ := FloatVal.num_iff.mp number
    rw [rsqrtExact, if_pos (signed_scaled_eq_zero.mp zero.symm)]
    exact ⟨_, f.deliver_divZero proper mode _, fun plus => by rw [plus, Bool.false_and]⟩
  · intro x number nonzero
    obtain ⟨m, e, rfl, rfl⟩ := FloatVal.num_iff.mp number
    rw [rsqrtExact, if_neg (mt signed_scaled_eq_zero.mpr nonzero)]
    exact f.deliver_invalid proper mode
  · intro x number nonzero
    obtain ⟨m, e, rfl, rfl⟩ := FloatVal.num_iff.mp number
    obtain ⟨above, below⟩ := bounds _ number nonzero
    rw [ne_eq, signed_scaled_eq_zero] at nonzero
    obtain ⟨q, e', sticky, root, wide, truncates⟩ := rsqrtFinite_truncates f.prec e nonzero
    rw [rsqrtExact, if_neg nonzero, if_neg Bool.false_ne_true, root]
    rw [signed_false, abs_of_nonneg (by positivity)] at above below
    obtain ⟨low, high⟩ := one_div_sqrt_bounds proper above below
    exact f.approximate_spec proper mode _ (Nat.le_add_right 1 _) rsqrtUlp_le false truncates wide low high

/-- Conversions between formats (R428, R429). -/
theorem deliver_convert (v : FloatVal) :
    let r := match v with
      | .fin neg m e => f.deliver mode (.fin neg m e false)
      | .inf neg => f.deliver mode (.inf neg)
      | .nan _ => f.deliver mode .nan
    (∀ p, v = .inf p → GivesInf f r p 0) ∧ ∀ p x, v.Num p x → DeliversAny f mode x p r := by
  refine ⟨?_, ?_⟩
  · rintro p rfl
    exact f.deliver_inf proper mode p
  · intro p x number
    obtain ⟨m, e, rfl, rfl⟩ := FloatVal.num_iff.mp number
    exact f.deliver_of_standsFor proper mode (Exact.standsFor_fin ..)

/-- Conversions from integers (R428, R429). -/
theorem integerToFloat_delivers (n : ℤ) : DeliversAny f mode n false (integerToFloat f mode n) := by
  apply f.deliver_of_standsFor proper mode
  refine ⟨_, ?_, .exact _ 0, nofun, fun zero => ?_⟩
  · rw [zpow_zero, mul_one, signed_natAbs]
  · simp [Int.cast_eq_zero.mp zero]

/-- NMADD and NMSUB (R413, R414). -/
theorem negateResult_spec (r : FloatResult) : f.value (f.negateResult r).value = (f.value r.value).negate ∧
    (f.negateResult r).raised = r.raised ∧ (f.negateResult r).e = r.e :=
  ⟨f.value_xor_signMask proper r.value, rfl, rfl⟩

end

/-- ABS and NEG: the word with the sign changed, but for a NaN (R407, R408). -/
theorem floatSign_spec {f : FloatFormat} (proper : f.Proper) (mode : FloatMode) {a w : Word} {change : FloatVal → FloatVal}
    (changed : f.value w = change (f.value a)) :
    let r := floatSign f mode a w
    (f.value a = .nan true → GivesNan f r flagV) ∧ (f.value a = .nan false → GivesNan f r 0) ∧
    (∀ p, f.value a = .inf p → f.value r.value = change (.inf p) ∧ r.raised = 0 ∧ r.e = false) ∧
    (∀ p m e, f.value a = .fin p m e → f.value r.value = change (.fin p m e) ∧ r.raised = 0 ∧ r.e = false) := by
  dsimp only
  rw [floatSign]
  refine ⟨fun signaling => ?_, fun quiet => ?_, fun p inf => ?_, fun p m e fin => ?_⟩
  · rw [signaling]
    exact f.deliver_invalid proper mode
  · rw [quiet]
    exact f.deliver_nan proper mode
  · rw [inf] at changed ⊢
    exact ⟨changed, rfl, rfl⟩
  · rw [fin] at changed ⊢
    exact ⟨changed, rfl, rfl⟩

/-! ## The obligation -/

/-- Settles O59: each operation delivers its exact result, which stands for the real number of the statement. -/
theorem floatValues : Obligations.FloatValues := by
  refine ⟨?_, fun p m e => ⟨rfl, rfl⟩, ?_, ?_⟩
  · intro f mode a b c ieee
    have proper := FloatFormat.Proper.of_ieee ieee
    obtain ⟨absSignaling, absQuiet, absInf, absFin⟩ := floatSign_spec proper mode (f.value_and_not_signMask proper a)
    refine ⟨?_, ?_, ?_, ?_, ?_, ?_, ?_, ?_, ?_, ?_, negateResult_spec proper _, negateResult_spec proper _,
      absSignaling, absQuiet, absInf, absFin, ?_⟩
    · intro w
      refine ⟨fun denormal flush => ?_, f.operand_of_kept⟩
      rw [f.operand_of_flushed denormal flush]
      exact ⟨0, 0, rfl, by simp⟩
    · exact arithmetic_floatArith proper fun _ => deliver_addExact proper mode _ _
    · exact arithmetic_floatArith proper fun _ => deliver_addExact proper mode _ _
    · exact arithmetic_floatArith proper fun _ => deliver_mulExact proper mode _ _
    · exact arithmetic_floatArith proper fun _ => deliver_divExact proper mode _ _
    · exact arithmetic_floatArith proper fun _ => deliver_sqrtExact proper mode _
    · exact arithmetic_floatArith proper fun _ => approximate_recip proper mode _
    · refine arithmetic_floatArith proper fun usable => approximate_rsqrt proper mode _ fun x number nonzero => ?_
      exact f.operand_bounds proper (usable.imp_right fun none => none a (List.mem_singleton_self a)) number nonzero
    · exact arithmetic_floatArith proper fun _ => deliver_fmaExact proper mode _ _ _
    · exact arithmetic_floatArith proper fun _ => deliver_fmaExact proper mode _ _ _
    · obtain ⟨negSignaling, negQuiet, negInf, negFin⟩ := floatSign_spec proper mode (f.value_xor_signMask proper a)
      refine ⟨negSignaling, negQuiet, negInf, negFin, ?_, integerToFloat_delivers proper mode⟩
      intro g gIeee
      have gProper := FloatFormat.Proper.of_ieee gIeee
      exact arithmetic_floatArith gProper fun _ => deliver_convert gProper mode _
  · intro w E F
    refine ⟨fun last => ?_, fun first => ?_, fun nonzero below => ?_⟩
    · exact FloatFormat.value_of_exponent_last (.of_ieee (.inl rfl)) last
    · exact FloatFormat.value_of_exponent_zero (.of_ieee (.inl rfl)) first
    · have unit : (E : ℤ) - FloatFormat.single.bias - (FloatFormat.single.prec - 1 : Nat) = E - 150 := by
        change (E : ℤ) - (127 : Nat) - (23 : Nat) = E - 150
        omega
      exact (FloatFormat.value_of_exponent_normal (f := .single) nonzero below).trans (congrArg (FloatVal.fin _ _) unit)
  · intro w E F
    refine ⟨fun last => ?_, fun first => ?_, fun nonzero below => ?_⟩
    · exact FloatFormat.value_of_exponent_last (.of_ieee (.inr rfl)) last
    · exact FloatFormat.value_of_exponent_zero (.of_ieee (.inr rfl)) first
    · have unit : (E : ℤ) - FloatFormat.double.bias - (FloatFormat.double.prec - 1 : Nat) = E - 1075 := by
        change (E : ℤ) - (1023 : Nat) - (52 : Nat) = E - 1075
        omega
      exact (FloatFormat.value_of_exponent_normal (f := .double) nonzero below).trans (congrArg (FloatVal.fin _ _) unit)

end Sys2Proof.Machine

/-! PROOFS. Floating-point arithmetic, conversions and compares as instructions (45_fp_arith.md): which word is which, what must be
enabled, and how each ends (R417). -/

namespace Sys2Proof.Machine
open Sys2Proof

/-! ## Guards -/

section
variable {i : Instr} {s : State} {effect : Prop} {x : Access State}

/-- An SGI-extended instruction of coprocessor 1 does what stands behind its two guards (R612). -/
theorem NeedsXx.of_run (run : exec i s = ((needCop1 s).bind fun _ => (needXx s).bind fun _ => x).finish s)
    (behind : exec i s = x.finish s → effect) : NeedsCp1 i s (NeedsXx i s effect) :=
  .of_bind run fun run => .of_bind run behind

/-- A MIPS III instruction of coprocessor 1 does what stands behind its two guards (R611). -/
theorem NeedsUx.of_run (run : exec i s = ((needCop1 s).bind fun _ => (needUx s).bind fun _ => x).finish s)
    (behind : exec i s = x.finish s → effect) : NeedsCp1 i s (NeedsUx i s effect) :=
  .of_bind run fun run => .of_bind run behind

/-- Only a condition code other than 0 makes an instruction an SGI-extended one (R489, R612). -/
theorem needsXxForCc_of_run {cc : CC}
    (run : exec i s = ((needCop1 s).bind fun _ => (needXxForCc s cc).bind fun _ => x).finish s)
    (behind : exec i s = x.finish s → effect) :
    NeedsCp1 i s ((cc = 0 ∨ XxOn s → effect) ∧ (cc ≠ 0 → ¬XxOn s → Raises i s .reservedInstruction)) := by
  refine .of_bind run fun run => ?_
  rw [needXxForCc] at run
  by_cases zero : cc = 0
  · rw [if_pos zero] at run
    exact ⟨fun _ => behind run, absurd zero⟩
  · rw [if_neg zero] at run
    obtain ⟨enabled, disabled⟩ := NeedsXx.of_bind run behind
    exact ⟨fun on => enabled (on.resolve_left zero), fun _ => disabled⟩

end

/-! ## The instructions -/

/-- Settles O50: behind its guards each instruction runs its operation of one, two or three operands. -/
theorem floatArithmetic : Obligations.FloatArithmetic := by
  refine ⟨?_, ?_, ?_⟩
  · intro s ft fs fd
    exact ⟨
      .of_pieces rfl (split_rType ..), .of_bind rfl .of_exec, .of_pieces rfl (split_rType ..), .of_bind rfl .of_exec,
      .of_pieces rfl (split_rType ..), .of_bind rfl .of_exec, .of_pieces rfl (split_rType ..), .of_bind rfl .of_exec,
      .of_pieces rfl (split_rType ..), .of_bind rfl .of_exec, .of_pieces rfl (split_rType ..), .of_bind rfl .of_exec,
      .of_pieces rfl (split_rType ..), .of_bind rfl .of_exec, .of_pieces rfl (split_rType ..), .of_bind rfl .of_exec⟩
  · intro s fs fd
    exact ⟨
      .of_pieces rfl (split_rType ..), .of_bind rfl .of_exec, .of_pieces rfl (split_rType ..), .of_bind rfl .of_exec,
      .of_pieces rfl (split_rType ..), .of_bind rfl .of_exec, .of_pieces rfl (split_rType ..), .of_bind rfl .of_exec,
      .of_pieces rfl (split_rType ..), .of_bind rfl .of_exec, .of_pieces rfl (split_rType ..), .of_bind rfl .of_exec,
      .of_pieces rfl (split_rType ..), NeedsXx.of_run rfl .of_exec, .of_pieces rfl (split_rType ..), NeedsXx.of_run rfl .of_exec,
      .of_pieces rfl (split_rType ..), NeedsXx.of_run rfl .of_exec, .of_pieces rfl (split_rType ..), NeedsXx.of_run rfl .of_exec⟩
  · intro s fr ft fs fd
    exact ⟨
      .of_pieces rfl (split_rType ..), NeedsXx.of_run rfl .of_exec, .of_pieces rfl (split_rType ..), NeedsXx.of_run rfl .of_exec,
      .of_pieces rfl (split_rType ..), NeedsXx.of_run rfl .of_exec, .of_pieces rfl (split_rType ..), NeedsXx.of_run rfl .of_exec,
      .of_pieces rfl (split_rType ..), NeedsXx.of_run rfl .of_exec, .of_pieces rfl (split_rType ..), NeedsXx.of_run rfl .of_exec,
      .of_pieces rfl (split_rType ..), NeedsXx.of_run rfl .of_exec, .of_pieces rfl (split_rType ..), NeedsXx.of_run rfl .of_exec⟩

/-- Settles O52: behind its guards each instruction runs the compare of its predicate. -/
theorem floatCompares : Obligations.FloatCompares := by
  intro s ft fs cc
  exact ⟨
    .of_pieces rfl (split_rType ..), needsXxForCc_of_run rfl .of_exec,
    .of_pieces rfl (split_rType ..), needsXxForCc_of_run rfl .of_exec,
    .of_pieces rfl (split_rType ..), needsXxForCc_of_run rfl .of_exec,
    .of_pieces rfl (split_rType ..), needsXxForCc_of_run rfl .of_exec,
    .of_pieces rfl (split_rType ..), needsXxForCc_of_run rfl .of_exec,
    .of_pieces rfl (split_rType ..), needsXxForCc_of_run rfl .of_exec,
    .of_pieces rfl (split_rType ..), needsXxForCc_of_run rfl .of_exec,
    .of_pieces rfl (split_rType ..), needsXxForCc_of_run rfl .of_exec,
    .of_pieces rfl (split_rType ..), needsXxForCc_of_run rfl .of_exec,
    .of_pieces rfl (split_rType ..), needsXxForCc_of_run rfl .of_exec,
    .of_pieces rfl (split_rType ..), needsXxForCc_of_run rfl .of_exec,
    .of_pieces rfl (split_rType ..), needsXxForCc_of_run rfl .of_exec,
    .of_pieces rfl (split_rType ..), needsXxForCc_of_run rfl .of_exec,
    .of_pieces rfl (split_rType ..), needsXxForCc_of_run rfl .of_exec,
    .of_pieces rfl (split_rType ..), needsXxForCc_of_run rfl .of_exec,
    .of_pieces rfl (split_rType ..), needsXxForCc_of_run rfl .of_exec,
    .of_pieces rfl (split_rType ..), needsXxForCc_of_run rfl .of_exec,
    .of_pieces rfl (split_rType ..), needsXxForCc_of_run rfl .of_exec,
    .of_pieces rfl (split_rType ..), needsXxForCc_of_run rfl .of_exec,
    .of_pieces rfl (split_rType ..), needsXxForCc_of_run rfl .of_exec,
    .of_pieces rfl (split_rType ..), needsXxForCc_of_run rfl .of_exec,
    .of_pieces rfl (split_rType ..), needsXxForCc_of_run rfl .of_exec,
    .of_pieces rfl (split_rType ..), needsXxForCc_of_run rfl .of_exec,
    .of_pieces rfl (split_rType ..), needsXxForCc_of_run rfl .of_exec,
    .of_pieces rfl (split_rType ..), needsXxForCc_of_run rfl .of_exec,
    .of_pieces rfl (split_rType ..), needsXxForCc_of_run rfl .of_exec,
    .of_pieces rfl (split_rType ..), needsXxForCc_of_run rfl .of_exec,
    .of_pieces rfl (split_rType ..), needsXxForCc_of_run rfl .of_exec,
    .of_pieces rfl (split_rType ..), needsXxForCc_of_run rfl .of_exec,
    .of_pieces rfl (split_rType ..), needsXxForCc_of_run rfl .of_exec,
    .of_pieces rfl (split_rType ..), needsXxForCc_of_run rfl .of_exec,
    .of_pieces rfl (split_rType ..), needsXxForCc_of_run rfl .of_exec⟩

end Sys2Proof.Machine

/-! PROOFS. Compares (R440): the order of the values, and the truth value that the predicate selects. -/

namespace Sys2Proof.Machine
open Sys2Proof

/-! ## The order of the values -/

namespace FloatVal

/-- Two finite values at their common exponent are in the order of the numbers they stand for. -/
theorem scaled_order (an : Bool) (am : Nat) (ae : Int) (bn : Bool) (bm : Nat) (be : Int) :
    (scaled an am ae (min ae be) < scaled bn bm be (min ae be) ↔ signed an (am * (2 : ℝ) ^ ae) < signed bn (bm * 2 ^ be)) ∧
    (scaled an am ae (min ae be) = scaled bn bm be (min ae be) ↔ signed an (am * (2 : ℝ) ^ ae) = signed bn (bm * 2 ^ be)) := by
  have unit : (0 : ℝ) < 2 ^ min ae be := by positivity
  rw [← scaled_mul an am (min_le_left ae be), ← scaled_mul bn bm (min_le_right ae be), mul_lt_mul_iff_left₀ unit,
    mul_left_inj' unit.ne', Int.cast_lt, Int.cast_inj]
  exact ⟨Iff.rfl, Iff.rfl⟩

variable {x y : FloatVal} {p q : Bool} {u v : ℝ}

theorem lt_iff_of_num (xNum : x.Num p u) (yNum : y.Num q v) : x.lt y = true ↔ u < v := by
  obtain ⟨am, ae, rfl, rfl⟩ := num_iff.mp xNum
  obtain ⟨bm, be, rfl, rfl⟩ := num_iff.mp yNum
  rw [lt, decide_eq_true_iff]
  exact (scaled_order ..).1

theorem eq_iff_of_num (xNum : x.Num p u) (yNum : y.Num q v) : x.eq y = true ↔ u = v := by
  obtain ⟨am, ae, rfl, rfl⟩ := num_iff.mp xNum
  obtain ⟨bm, be, rfl, rfl⟩ := num_iff.mp yNum
  rw [eq, decide_eq_true_iff]
  exact (scaled_order ..).2

/-- Of less, equal and greater exactly one holds. -/
def Trichotomy (x y : FloatVal) : Prop :=
  (x.lt y = true ∧ x.eq y = false ∧ y.lt x = false) ∨ (x.lt y = false ∧ x.eq y = true ∧ y.lt x = false) ∨
    (x.lt y = false ∧ x.eq y = false ∧ y.lt x = true)

theorem trichotomy_of_num (xNum : x.Num p u) (yNum : y.Num q v) : x.Trichotomy y := by
  simp only [Trichotomy, ← Bool.not_eq_true, lt_iff_of_num xNum yNum, lt_iff_of_num yNum xNum, eq_iff_of_num xNum yNum]
  rcases lt_trichotomy u v with less | equal | greater
  · exact .inl ⟨less, less.ne, less.le.not_gt⟩
  · exact .inr (.inl ⟨equal.not_lt, equal, equal.symm.not_lt⟩)
  · exact .inr (.inr ⟨greater.le.not_gt, greater.ne', greater⟩)

theorem trichotomy (xNumber : x.isNan = false) (yNumber : y.isNan = false) : x.Trichotomy y := by
  cases x with
  | nan => exact absurd xNumber Bool.true_eq_false.mp
  | inf p =>
    cases y with
    | nan => exact absurd yNumber Bool.true_eq_false.mp
    | inf q => cases p <;> cases q <;> simp [Trichotomy, lt, eq]
    | fin => cases p <;> simp [Trichotomy, lt, eq]
  | fin an am ae =>
    cases y with
    | nan => exact absurd yNumber Bool.true_eq_false.mp
    | inf q => cases q <;> simp [Trichotomy, lt, eq]
    | fin bn bm be => exact trichotomy_of_num (num_fin an am ae) (num_fin bn bm be)

end FloatVal

/-! ## The truth value -/

/-- An operand that is not denormalized is compared as it is. -/
theorem FloatFormat.compareOperand_of_not_denormal {f : FloatFormat} {w : Word} (normal : f.denormal w = false) (mode : FloatMode)
    (n : Nat) : f.compareOperand mode n w = f.value w := by
  rw [compareOperand, normal, Bool.false_and, if_neg Bool.false_ne_true]

/-- Settles O53: the order of the operands is that of the numbers they stand for, and the predicate selects from it. -/
theorem compareTruthValue : Obligations.CompareTruthValue := by
  intro f m cond a b ieee aNormal bNormal
  dsimp only
  rw [floatCompare, f.compareOperand_of_not_denormal aNormal, f.compareOperand_of_not_denormal bNormal, aNormal, bNormal]
  generalize f.value a = x, f.value b = y
  refine ⟨?_, ?_, rfl, FloatVal.trichotomy, fun p u q v xNum yNum => ?_, fun p q xNum yNum => ?_, ?_, ?_, ?_⟩
  · simp only [Bool.or_eq_true, Bool.and_eq_true, or_assoc]
  · simp only [Bool.or_eq_true, Bool.and_eq_true, or_assoc]
  · exact ⟨FloatVal.lt_iff_of_num xNum yNum, FloatVal.eq_iff_of_num xNum yNum⟩
  · rw [← Bool.not_eq_true, FloatVal.lt_iff_of_num xNum yNum, FloatVal.eq_iff_of_num xNum yNum]
    exact ⟨lt_irrefl _, rfl⟩
  · rintro p q rfl rfl
    simp [FloatVal.lt, FloatVal.eq]
  · rintro p q v rfl ⟨m, e, rfl, -⟩
    simp [FloatVal.lt, FloatVal.eq]
  · rintro p u q ⟨m, e, rfl, -⟩ rfl
    simp [FloatVal.lt, FloatVal.eq]

end Sys2Proof.Machine

/-! PROOFS. Conversions (R420 to R432): the integer that an operand is rounded to, and the conversion instructions. -/

namespace Sys2Proof.Machine
open Sys2Proof

/-! ## Rounding a number to an integer -/

/-- The magnitude of a finite value rounded to an integer, and whether that was inexact. -/
def roundedMagnitude (rm : BitVec 2) (neg : Bool) (m : Nat) (e : Int) : Nat × Bool :=
  if 0 ≤ e then (m * 2 ^ e.toNat, false) else roundShift rm neg m (-e).toNat false

theorem roundedMagnitude_spec (rm : BitVec 2) (neg : Bool) (m : Nat) (e : Int) :
    RoundsToInt rm (signed neg (m * (2 : ℝ) ^ e)) (signedInt neg (roundedMagnitude rm neg m e).1) ∧
    ((roundedMagnitude rm neg m e).2 = true ↔ m * (2 : ℝ) ^ e ≠ (roundedMagnitude rm neg m e).1) := by
  rw [roundedMagnitude]
  split
  · next whole =>
    obtain ⟨k, rfl⟩ := Int.eq_ofNat_of_zero_le whole
    have value : m * (2 : ℝ) ^ (k : Int) = (m * 2 ^ k : Nat) := by push_cast; rfl
    rw [Int.toNat_natCast, value]
    exact ⟨roundsToInt_signed rm neg _, by simp⟩
  · next fraction =>
    obtain ⟨k, places⟩ := Int.eq_ofNat_of_zero_le (by omega : 0 ≤ -e)
    obtain ⟨rounds, inexact⟩ := (Truncates.exact m e).roundShift (k := k) nofun rm neg
    rw [show e + k = 0 by omega, zpow_zero, div_one] at rounds inexact
    rw [places, Int.toNat_natCast]
    exact ⟨rounds, inexact⟩

/-- A number converted to an integer format (R432). -/
theorem integerOfFinite_spec (mode : FloatMode) (rm : BitVec 2) (bits : Nat) (neg : Bool) (m : Nat) (e : Int) :
    let x := signed neg (m * (2 : ℝ) ^ e)
    let r := integerOfFinite mode rm bits neg m e
    ∃ n : ℤ, RoundsToInt rm x n ∧ r.e = false ∧
      (-2 ^ (bits - 1) ≤ n ∧ n < 2 ^ (bits - 1) →
        r.value = BitVec.ofInt 64 n ∧ (r.raised = 0 ∧ (n : ℝ) = x ∨ r.raised = flagI ∧ (n : ℝ) ≠ x)) ∧
      (¬(-2 ^ (bits - 1) ≤ n ∧ n < 2 ^ (bits - 1)) → r.raised = flagV) := by
  obtain ⟨rounds, inexact⟩ := roundedMagnitude_spec rm neg m e
  have result : integerOfFinite mode rm bits neg m e =
      if -(2 ^ (bits - 1) : Int) ≤ signedInt neg (roundedMagnitude rm neg m e).1 ∧
        signedInt neg (roundedMagnitude rm neg m e).1 < (2 ^ (bits - 1) : Int) then
        ⟨BitVec.ofInt 64 (signedInt neg (roundedMagnitude rm neg m e).1),
          if (roundedMagnitude rm neg m e).2 then flagI else 0, false⟩
      else convertInvalid mode := rfl
  intro x r
  refine ⟨_, rounds, ?_, fun fits => ?_, fun outside => ?_⟩
  · simp only [r, result]
    split <;> rfl
  · simp only [r, result, if_pos fits, x, cast_signedInt, signed_inj, true_and]
    cases mark : (roundedMagnitude rm neg m e).2 with
    | true => exact .inr ⟨rfl, fun same => inexact.mp mark (signed_inj.mp same).symm⟩
    | false => exact .inl ⟨rfl, (not_not.mp (mt inexact.mpr (by simp [mark]))).symm⟩
  · simp only [r, result, if_neg outside]
    rfl

/-- A value that is no NaN converted to an integer format (R432). -/
theorem integers_spec (mode : FloatMode) (rm : BitVec 2) (bits : Nat) (v : FloatVal) : Integers rm bits v
    (match v with
      | .fin neg m e => integerOfFinite mode rm bits neg m e
      | _ => convertInvalid mode) := by
  constructor
  · rintro a rfl
    exact ⟨rfl, rfl⟩
  · intro a x number
    obtain ⟨m, e, rfl, rfl⟩ := FloatVal.num_iff.mp number
    exact integerOfFinite_spec mode rm bits a m e

theorem floatToInteger_spec (f : FloatFormat) (mode : FloatMode) (rm : BitVec 2) (bits : Nat) (a : Word) :
    Arithmetic f mode [a] (floatToInteger f mode rm bits a) (fun _ d => d.raised = flagV ∧ d.e = false)
      (Integers rm bits (f.operand mode a)) :=
  arithmetic_floatOp ⟨rfl, rfl⟩ ⟨rfl, rfl⟩ fun _ => integers_spec mode rm bits (f.operand mode a)

/-! ## The instructions -/

/-- Settles O51: behind its guards each instruction runs its conversion. -/
theorem floatConversions : Obligations.FloatConversions := by
  constructor
  · intro s fs fd
    exact ⟨
      .of_pieces rfl (split_rType ..), NeedsUx.of_run rfl .of_exec, .of_pieces rfl (split_rType ..), NeedsUx.of_run rfl .of_exec,
      .of_pieces rfl (split_rType ..), NeedsUx.of_run rfl .of_exec, .of_pieces rfl (split_rType ..), NeedsUx.of_run rfl .of_exec,
      .of_pieces rfl (split_rType ..), NeedsUx.of_run rfl .of_exec, .of_pieces rfl (split_rType ..), NeedsUx.of_run rfl .of_exec,
      .of_pieces rfl (split_rType ..), NeedsUx.of_run rfl .of_exec, .of_pieces rfl (split_rType ..), NeedsUx.of_run rfl .of_exec,
      .of_pieces rfl (split_rType ..), .of_bind rfl .of_exec, .of_pieces rfl (split_rType ..), .of_bind rfl .of_exec,
      .of_pieces rfl (split_rType ..), .of_bind rfl .of_exec, .of_pieces rfl (split_rType ..), .of_bind rfl .of_exec,
      .of_pieces rfl (split_rType ..), .of_bind rfl .of_exec, .of_pieces rfl (split_rType ..), .of_bind rfl .of_exec,
      .of_pieces rfl (split_rType ..), .of_bind rfl .of_exec, .of_pieces rfl (split_rType ..), .of_bind rfl .of_exec,
      .of_pieces rfl (split_rType ..), .of_bind rfl .of_exec, .of_pieces rfl (split_rType ..), .of_bind rfl .of_exec,
      .of_pieces rfl (split_rType ..), NeedsUx.of_run rfl .of_exec, .of_pieces rfl (split_rType ..), NeedsUx.of_run rfl .of_exec,
      fun f mode rm bits a _ _ => floatToInteger_spec f mode rm bits a⟩
  · intro s fs fd
    exact ⟨
      .of_pieces rfl (split_rType ..), .of_bind rfl .of_exec, .of_pieces rfl (split_rType ..), .of_bind rfl .of_exec,
      .of_pieces rfl (split_rType ..), .of_bind rfl .of_exec, .of_pieces rfl (split_rType ..), .of_bind rfl .of_exec,
      .of_pieces rfl (split_rType ..), NeedsUx.of_run rfl .of_exec, .of_pieces rfl (split_rType ..), NeedsUx.of_run rfl .of_exec⟩

end Sys2Proof.Machine

/-! PROOFS. Floating-point loads, stores, moves, branches and conditional moves (46_fp_mem_move.md): what each does behind its guards,
and what of the state it leaves alone. -/

namespace Sys2Proof.Machine
open Sys2Proof

/-! ## Guards -/

theorem needFprPairs_singleton (s : State) (r : Reg) : needFprPairs s [r] = needFprPair s r := by
  rw [needFprPairs]
  cases needFprPair s r <;> rfl

section
variable {i : Instr} {s : State} {x : Access State}

/-- An instruction of coprocessor 1 does what stands behind its guard when the coprocessor is usable. -/
theorem runs_of_usable1 (usable : s.usable1 = true) (run : exec i s = ((needCop1 s).bind fun _ => x).finish s) :
    exec i s = x.finish s :=
  runs_of_ok run (needCop1_ok usable)

/-- An instruction with one 64-bit operand does what stands behind the check of it. -/
theorem NeedsPairs.of_pair {r : Reg} {effect : Prop} (run : exec i s = ((needFprPair s r).bind fun _ => x).finish s)
    (behind : exec i s = x.finish s → effect) : NeedsPairs i s [r] effect := by
  rw [← needFprPairs_singleton] at run
  exact .of_bind run behind

end

/-! ## The value of a load -/

theorem State.loadFloat_fst (s : State) (va : Word) (t : Translation) (n : Nat) :
    (s.loadFloat va t n).1 = s.valueOf t.pa (s.floatLoadBytes va t n).1 := rfl

theorem State.floatLoadBytes_length (s : State) (va : Word) (t : Translation) (n : Nat) :
    (s.floatLoadBytes va t n).1.length = n := by
  rw [State.floatLoadBytes]
  split
  · exact s.physBytes_length _ n
  · exact bytesOf_length n _

/-- A floating-point load from a half line that DCTW has written gets the bytes of memory (R151). -/
theorem State.floatLoadBytes_ready {s : State} {va : Word} (ready : s.dcacheReady va = true) (t : Translation) (n : Nat) :
    (s.floatLoadBytes va t n).1 = s.physBytes t.pa.toNat n := if_pos ready

/-- A loaded value has no bits above its bytes. -/
theorem State.loadFloat_lt (s : State) (va : Word) (t : Translation) (n : Nat) : (s.loadFloat va t n).1.toNat < 256 ^ n := by
  have bound := s.toNat_valueOf_lt t.pa (s.floatLoadBytes va t n).1
  rwa [State.floatLoadBytes_length] at bound

/-- The k-th byte of a loaded value, the least significant being the 0-th, is the byte of memory at its place in the current byte
order (R124, R151). -/
theorem State.loadFloat_byte {s : State} {va : Word} {t : Translation} {n k : Nat} (small : n ≤ 8)
    (ready : s.dcacheReady va = true) (same : ByteOrder.mixed s.byteOrder s.bigEndian t.pa.toNat n = false)
    (backed : ∀ k, k < n → s.backedAt (t.pa.toNat + k) = true) (inside : k < n) :
    (s.loadFloat va t n).1.toNat / 256 ^ k % 256 =
      (Memory.read s.mem (t.pa.toNat + (if s.bigEndian then n - 1 - k else k))).toNat := by
  have len := s.physBytes_length t.pa.toNat n
  have place : (if s.bigEndian = true then n - 1 - k else k) < n := by split <;> omega
  rw [State.loadFloat_fst, State.floatLoadBytes_ready ready, State.valueOf_sameOrder (by rwa [len]),
    toNat_byte_loadedValue _ (by rwa [len]) (by rwa [len]), len, s.physBytes_getD _ _ _ place,
    State.physByte_backed (backed _ place)]

/-! ## Loads and stores (R460 to R464, R470 to R473) -/

section
variable {i : Instr} {s : State} {r base : Reg} {off : Word}

/-- A load of 32 bits completes where its address can be used. -/
theorem loadsFprWord_of_run (run : exec i s = (s.loadFprWord r base off).finish s) (va : Word) (t : Translation)
    (address : s.dataAddress .load 4 base off = .ok (va, t)) :
    WritesFprWord i s r ((s.loadFloat va t 4).1.setWidth 32) [.llbit, .dcache, .scache, .vciPending] ∧
      Leaves i s (FloatLoadedCaches s va t) := by
  have completes := runs_of_ok run address
  exact ⟨.of_exec completes (s.loadFloat_effect va t 4), .of_loadFprWord completes⟩

/-- A load of 64 bits completes where its register is legal and its address can be used. -/
theorem loadsFpr_of_run (run : exec i s = (s.loadFpr r base off).finish s) : NeedsPairs i s [r]
    (∀ va t, s.dataAddress .load 8 base off = .ok (va, t) →
      WritesFpr i s r (s.loadFloat va t 8).1 [.llbit, .dcache, .scache, .vciPending] ∧
        Leaves i s (FloatLoadedCaches s va t)) := by
  refine .of_pair run fun run va t address => ?_
  have completes := runs_of_ok run address
  exact ⟨.of_exec completes (s.loadFloat_effect va t 8), .of_loadFpr completes⟩

/-- A store of 32 bits completes where its address can be used. -/
theorem storesFprWord_of_run (run : exec i s = (s.storeFprWord r base off).finish s) (va : Word) (t : Translation)
    (address : s.dataAddress .store 4 base off = .ok (va, t)) :
    StoresBytes i s t.pa.toNat (storedBytes s.bigEndian 4 ((s.fprWord r).setWidth 64)) [.vciPending] ∧
      Leaves i s (FloatStoredCaches s va t 4) := by
  have completes := runs_of_ok run address
  exact ⟨.of_exec_float completes (s.storeFloat_effect va t 4 _), .of_storeFloat (by decide) completes⟩

/-- A store of 64 bits completes where its register is legal and its address can be used. -/
theorem storesFpr_of_run (run : exec i s = (s.storeFpr r base off).finish s) : NeedsPairs i s [r]
    (∀ va t, s.dataAddress .store 8 base off = .ok (va, t) →
      StoresBytes i s t.pa.toNat (storedBytes s.bigEndian 8 (s.fprFile r)) [.vciPending] ∧
        Leaves i s (FloatStoredCaches s va t 8)) := by
  refine .of_pair run fun run va t address => ?_
  have completes := runs_of_ok run address
  exact ⟨.of_exec_float completes (s.storeFloat_effect va t 8 _), .of_storeFloat (by decide) completes⟩

end

/-- Settles O56: behind its guards each is the load or store of its size, whose address is the first part after the check of its
register. -/
theorem floatLoadsAndStores : Obligations.FloatLoadsAndStores := by
  constructor
  · intro s base index r off
    refine ⟨.of_pieces rfl (split_iType ..), .of_pieces rfl (split_iType ..), .of_pieces rfl (split_rType ..),
      .of_pieces rfl (split_rType ..), .of_bind rfl loadsFprWord_of_run, .of_bind rfl loadsFpr_of_run,
      NeedsXx.of_run rfl loadsFprWord_of_run, NeedsXx.of_run rfl loadsFpr_of_run, fun usable e => ?_, ?_, ?_⟩
    · exact ⟨raises_of_raise (runs_of_usable1 usable rfl),
        fun failed => .of_pair (runs_of_usable1 usable rfl) (raises_of_raise · failed),
        fun failed => .of_bind (runs_of_usable1 usable rfl) (raises_of_raise · failed),
        fun failed => .of_bind (runs_of_usable1 usable rfl) fun run => .of_pair run (raises_of_raise · failed)⟩
    · exact fun va t n _ small ready same backed k inside => State.loadFloat_byte small ready same backed inside
    · exact fun va t n _ => s.loadFloat_lt va t n
  · intro s base index r off
    refine ⟨.of_pieces rfl (split_iType ..), .of_pieces rfl (split_iType ..), .of_pieces rfl (split_rType ..),
      .of_pieces rfl (split_rType ..), .of_bind rfl storesFprWord_of_run, .of_bind rfl storesFpr_of_run,
      NeedsXx.of_run rfl storesFprWord_of_run, NeedsXx.of_run rfl storesFpr_of_run, fun usable e => ?_⟩
    exact ⟨raises_of_raise (runs_of_usable1 usable rfl),
      fun failed => .of_pair (runs_of_usable1 usable rfl) (raises_of_raise · failed),
      fun failed => .of_bind (runs_of_usable1 usable rfl) (raises_of_raise · failed),
      fun failed => .of_bind (runs_of_usable1 usable rfl) fun run => .of_pair run (raises_of_raise · failed)⟩

/-! ## Control registers (R484, R485) -/

/-- Draining the FPU changes at most the FPI that the CPU sees (log 29). -/
theorem State.drain_keeps (s : State) : KeepsAllBut s s.drain [.fpiSeen] := by
  intro p other
  cases p with
  | fpiSeen => simp at other
  | regs => exact fun _ => rfl
  | memory => exact fun _ => rfl
  | _ => rfl

theorem Fsr.traps_cause_iff (f : Fsr) : f.traps f.cause f.e = true ↔ f.cause &&& f.enable ≠ 0 ∨ f.e = true := by
  rw [Fsr.traps, Bool.or_eq_true, bne_iff_ne]

/-- A condition code that two values of the FSR agree in is not among those that changed. -/
theorem Fsr.not_changed_of_cc_eq {f g : Fsr} {n : CC} (same : f.cc n = g.cc n) : (f.fcc ^^^ g.fcc).getLsbD n.toNat = false := by
  rw [Fsr.cc, Fsr.cc] at same
  rw [BitVec.getLsbD_xor, same, Bool.xor_self]

section
variable {i : Instr} {s : State} {rt fs : Reg}

/-- CFC1: the register gets the value read, and only a read of the FSR drains the FPU. -/
theorem readsFcr_of_run
    (run : exec i s = ((if fs = 31 then s.drain else s).writeReg rt (sext32 (s.readFcr fs))).finish s) :
    ∃ t v, exec i s = .next t ∧ Advances s t ∧ t.reg rt = (if rt = 0 then 0 else v) ∧ KeepsRegsBut s t rt ∧
      (fs = 31 → v = s.fsr.image.signExtend 64 ∧ t.fpiSeen = s.fsr.fpi) ∧
      (fs = 0 → v = (fConfigImage Config.fconfigImp Config.fconfigRev).signExtend 64) ∧
      (fs ≠ 31 → t.fpiSeen = s.fpiSeen) ∧ KeepsAllBut s t [.regs, .fpiSeen] := by
  by_cases fsr : fs = 31
  · subst fsr
    rw [if_pos rfl] at run
    have kept := s.drain_keeps
    obtain ⟨value, others⟩ := keepsRegsBut_setReg_advance (kept .regs (by decide)) rt (sext32 (s.readFcr 31))
    exact ⟨_, _, run, .of_eq (State.setReg_npc ..), value, others, fun _ => ⟨rfl, State.setReg_fpiSeen ..⟩,
      fun zero => absurd zero (by decide), absurd rfl, kept.setReg_advance rt _⟩
  · rw [if_neg fsr] at run
    obtain ⟨t, next, advances, value, others, kept⟩ := WritesReg.of_exec run
    refine ⟨t, _, next, advances, value, others, fun is31 => absurd is31 fsr, ?_, fun _ => kept .fpiSeen (by decide),
      kept.mono (by decide)⟩
    rintro rfl
    rfl

/-- CTC1 to the FSR: a precise trap from the state with the written FSR, or its fields written and nothing else (R485, D31). -/
theorem writesFsr_of_run {f : Fsr} (written : f = Fsr.written (lowWord (s.reg rt)))
    (run : exec i s = (s.writeFsr (lowWord (s.reg rt))).finish s) :
    (s.statusView.dm = true ∧ (f.cause &&& f.enable ≠ 0 ∨ f.e = true) →
      exec i s = .next (takeException .floatingPoint { s with fsr := f })) ∧
    (¬(s.statusView.dm = true ∧ (f.cause &&& f.enable ≠ 0 ∨ f.e = true)) →
      ∃ t, exec i s = .next t ∧ Advances s t ∧ t.fsr = f ∧ KeepsAllBut s t [.fsr] ∧
        ∀ n : CC, s.fsr.cc n = f.cc n → t.fccBusy.getLsbD n.toNat = false) := by
  rw [State.writeFsr, ← written] at run
  rw [← f.traps_cause_iff, ← Bool.and_eq_true]
  constructor
  · intro traps
    rwa [if_pos traps] at run
  · intro completes
    rw [if_neg completes] at run
    refine ⟨_, run, ⟨rfl, rfl, rfl⟩, rfl, ?_, fun n same => Fsr.not_changed_of_cc_eq same⟩
    intro p other
    cases p with
    | fsr => simp at other
    | regs => exact fun _ => rfl
    | memory => exact fun _ => rfl
    | _ => rfl

end

/-- Settles O57: behind its guards each move writes its one register, and CFC1 and CTC1 do what they do to the FSR. -/
theorem floatControlAndRegisterMoves : Obligations.FloatControlAndRegisterMoves := by
  constructor
  · intro s rt fs
    exact ⟨.of_pieces rfl (split_rType ..), .of_pieces rfl (split_rType ..), .of_pieces rfl (split_rType ..),
      .of_pieces rfl (split_rType ..), .of_pieces rfl (split_rType ..), .of_bind rfl .of_exec,
      NeedsUx.of_run rfl fun run => .of_pair run .of_exec, .of_bind rfl .of_move,
      NeedsUx.of_run rfl fun run => .of_pair run .of_move, .of_bind rfl readsFcr_of_run⟩
  · intro s rt fs
    refine ⟨.of_pieces rfl (split_rType ..), .of_bind rfl fun run => ⟨fun other => ?_, fun fsr => ⟨_, rfl, ?_⟩⟩⟩
    · rw [if_neg other] at run
      exact .of_exec run
    · rw [if_pos fsr] at run
      exact writesFsr_of_run rfl run

/-! ## Branches on a condition code (R489 to R493) -/

section
variable {i : Instr} {s : State} {cc : CC}

theorem Branches.either {c : Prop} {target : Word} {link : Option Reg} (branches : Branches i s c target link) :
    Transfers i s target link ∨ FallsThrough i s link :=
  (em c).imp branches.1 branches.2

theorem BranchesLikely.either {c : Prop} {target : Word} {link : Option Reg} (branches : BranchesLikely i s c target link) :
    Transfers i s target link ∨ SkipsSlot i s link :=
  (em c).imp branches.1 branches.2

/-- A settled condition code is tested as it stands in the FSR. -/
theorem State.testCc_iff (settled : s.fccBusy.getLsbD cc.toNat = false) : s.testCc cc = true ↔ s.fsr.cc cc = true := by
  rw [s.testCc_of_settled settled]

theorem State.not_testCc_iff (settled : s.fccBusy.getLsbD cc.toNat = false) :
    (!s.testCc cc) = true ↔ s.fsr.cc cc = false := by
  rw [s.testCc_of_settled settled, Bool.not_eq_true']

/-- A branch on a condition code, behind its three guards: what it does when the code is settled, and what it may do when the
instruction before wrote it (R670). -/
theorem branchesOnCc_of_run {x : Access State} {tested either : Prop}
    (run : exec i s = ((needCop1 s).bind fun _ => (needXxForCc s cc).bind fun _ => (needNotInSlot s).bind fun _ => x).finish s)
    (settled : s.fccBusy.getLsbD cc.toNat = false → exec i s = x.finish s → tested)
    (busy : exec i s = x.finish s → either) :
    NeedsCp1 i s ((cc ≠ 0 → ¬XxOn s → Raises i s .reservedInstruction) ∧
      (cc = 0 ∨ XxOn s → (s.inSlot = true → exec i s = .refused .transferInDelaySlot) ∧
        (s.inSlot = false → s.fccBusy.getLsbD cc.toNat = false → tested) ∧
        (s.inSlot = false → s.fccBusy.getLsbD cc.toNat = true → either))) := by
  rw [And.comm]
  exact needsXxForCc_of_run run fun run => ⟨fun slot => refused_of_inSlot slot run,
    fun free code => settled code (run_of_not_inSlot free run), fun free _ => busy (run_of_not_inSlot free run)⟩

end

/-! ## Moves between floating-point registers (R494 to R499) -/

theorem State.moveSingleIf_eq (s : State) (c : Bool) (fd fs : Reg) :
    s.moveSingleIf c fd fs = .ok (if c then (s.moveFprWord fd (s.fprWord fs)).advance else s.advance) := by
  cases c <;> rfl

/-- The move behind the check of its registers checks them again, which changes nothing. -/
theorem State.moveDoubleIf_eq (s : State) (c : Bool) (fd fs : Reg) : s.moveDoubleIf c fd fs =
    (needFprPairs s [fd, fs]).bind fun _ => .ok (if c then (s.moveFpr fd (s.fprFile fs)).advance else s.advance) := by
  rw [State.moveDoubleIf, State.moveDouble]
  cases needFprPairs s [fd, fs] <;> cases c <;> rfl

section
variable {i : Instr} {s : State} {fd fs : Reg} {test : Bool} {holds : Prop} (tests : test = true ↔ holds)
include tests

/-- A conditional move of a single is performed when its test holds, and nothing happens when not (R495). -/
theorem movesSingle_of_run (run : exec i s = (s.moveSingleIf test fd fs).finish s) :
    (holds → WritesFprWord i s fd (s.fprWord fs) []) ∧ (¬holds → DoesNothing i s) := by
  rw [State.moveSingleIf_eq] at run
  obtain ⟨yes, no⟩ := next_of_test tests run
  exact ⟨fun moves => .of_move (yes moves), fun stays => .of_exec (no stays)⟩

/-- A conditional move of a double, with legal registers: the same (R495). -/
theorem movesDouble_of_run (run : exec i s = (s.moveDoubleIf test fd fs).finish s) : NeedsPairs i s [fd, fs]
    ((holds → WritesFpr i s fd (s.fprFile fs) []) ∧ (¬holds → DoesNothing i s)) := by
  rw [State.moveDoubleIf_eq] at run
  refine .of_bind run fun run => ?_
  obtain ⟨yes, no⟩ := next_of_test tests run
  exact ⟨fun moves => .of_move (yes moves), fun stays => .of_exec (no stays)⟩

end

/-- Settles O58: behind its guards each branch and each conditional move tests its condition, a branch once the code is settled. -/
theorem floatBranchesAndMoves : Obligations.FloatBranchesAndMoves := by
  constructor
  · intro s cc off
    exact ⟨.of_pieces rfl (split_iType ..), branchesOnCc_of_run rfl (fun settled => .of_run (State.not_testCc_iff settled))
        fun run => (Branches.of_run Iff.rfl run).either,
      .of_pieces rfl (split_iType ..), branchesOnCc_of_run rfl (fun settled => .of_run (State.testCc_iff settled))
        fun run => (Branches.of_run Iff.rfl run).either,
      .of_pieces rfl (split_iType ..), branchesOnCc_of_run rfl (fun settled => .of_run (State.not_testCc_iff settled))
        fun run => (BranchesLikely.of_run Iff.rfl run).either,
      .of_pieces rfl (split_iType ..), branchesOnCc_of_run rfl (fun settled => .of_run (State.testCc_iff settled))
        fun run => (BranchesLikely.of_run Iff.rfl run).either⟩
  · intro s rt fs fd cc
    have isFalse : (!s.fsr.cc cc) = true ↔ s.fsr.cc cc = false := by rw [Bool.not_eq_true']
    exact ⟨
      .of_pieces rfl (split_rType ..), .of_bind rfl .of_move,
      .of_pieces rfl (split_rType ..), NeedsXx.of_run rfl (movesSingle_of_run isFalse),
      .of_pieces rfl (split_rType ..), NeedsXx.of_run rfl (movesSingle_of_run Iff.rfl),
      .of_pieces rfl (split_rType ..), NeedsXx.of_run rfl (movesSingle_of_run beq_iff_eq),
      .of_pieces rfl (split_rType ..), NeedsXx.of_run rfl (movesSingle_of_run bne_iff_ne),
      .of_pieces rfl (split_rType ..), .of_bind rfl fun run => .of_bind run .of_move,
      .of_pieces rfl (split_rType ..), NeedsXx.of_run rfl (movesDouble_of_run isFalse),
      .of_pieces rfl (split_rType ..), NeedsXx.of_run rfl (movesDouble_of_run Iff.rfl),
      .of_pieces rfl (split_rType ..), NeedsXx.of_run rfl (movesDouble_of_run beq_iff_eq),
      .of_pieces rfl (split_rType ..), NeedsXx.of_run rfl (movesDouble_of_run bne_iff_ne)⟩

end Sys2Proof.Machine

/-! PROOFS. Exceptions, NMI and interrupts (60_exceptions.md, 70_reset_and_hazards.md R642): what an entry writes and what it leaves
alone, the return from it, and what user mode cannot change. -/

namespace Sys2Proof.Machine
open Sys2Proof

/-! ## What the event of an exception loads -/

/-- An event loads at most VAddr, EntryHi.R and VPN, EntryLo, TLBSet.SET and ShiftAmt (R134, R580). -/
theorem Exc.load_frame (e : Exc) (draws : Nat) (c : Cop0) : e.load draws c =
    { c with
      vAddr := (e.load draws c).vAddr, entryHi := { (e.load draws c).entryHi with asid := c.entryHi.asid }
      entryLo := (e.load draws c).entryLo, tlbSet := { (e.load draws c).tlbSet with p := c.tlbSet.p }
      shiftAmt := (e.load draws c).shiftAmt } := by
  cases e <;> rfl

theorem Exc.load_addressError {e : Exc} {va : Word} (draws : Nat) (c : Cop0)
    (address : e = .addressErrorLoad va ∨ e = .addressErrorStore va) : e.load draws c = { c with vAddr := va } := by
  rcases address with rfl | rfl <;> rfl

/-- Only address errors and TLB exceptions load anything. -/
theorem Exc.load_other {e : Exc} (draws : Nat) (c : Cop0)
    (noAddress : ∀ va, e ≠ .addressErrorLoad va ∧ e ≠ .addressErrorStore va)
    (noTlb : ∀ st va k w, e ≠ .tlbRefill st va k w ∧ e ≠ .tlbInvalid st va k w ∧ e ≠ .tlbModified va k w) :
    e.load draws c = c := by
  cases e with
  | addressErrorLoad va => exact absurd rfl (noAddress va).1
  | addressErrorStore va => exact absurd rfl (noAddress va).2
  | tlbRefill st va k w => exact absurd rfl (noTlb st va k w).1
  | tlbInvalid st va k w => exact absurd rfl (noTlb st va k w).2.1
  | tlbModified va k w => exact absurd rfl (noTlb false va k w).2.2
  | _ => rfl

/-! ## System state in user mode -/

/-- What an instruction may do to the system state where coprocessor 0 is not usable: at most set EXL, at an exception vector. -/
structure KeepsSystem (s t : State) : Prop where
  tlb : t.tlb = s.tlb
  icache : t.icache = s.icache
  trapBase : t.cp0.trapBase = s.cp0.trapBase
  config : t.cp0.config = s.cp0.config
  wired : t.cp0.wired = s.cp0.wired
  work0 : t.cp0.work0 = s.cp0.work0
  work1 : t.cp0.work1 = s.cp0.work1
  uBase : t.cp0.uBase = s.cp0.uBase
  pBase : t.cp0.pBase = s.cp0.pBase
  gBase : t.cp0.gBase = s.cp0.gBase
  asid : t.cp0.entryHi.asid = s.cp0.entryHi.asid
  status : t.cp0.status = s.cp0.status ∨
    (t.cp0.status = { s.cp0.status with exl := true } ∧ ∃ off, t.pc = s.trapBaseView.vector off ∧ t.inSlot = false)

theorem KeepsSystem.of_same {s t : State} (cp0 : t.cp0 = s.cp0) (tlb : t.tlb = s.tlb) (icache : t.icache = s.icache) :
    KeepsSystem s t := by
  constructor <;> simp [cp0, tlb, icache]

/-- An exception writes Cause, Status.EXL and EPC, and what its event loads; all of that is outside the system state. -/
theorem takeException_keepsSystem (e : Exc) (s : State) : KeepsSystem s (takeException e s) := by
  refine ⟨rfl, rfl, ?_, ?_, ?_, ?_, ?_, ?_, ?_, ?_, ?_, .inr ⟨takeException_status e s, _, takeException_pc e s, rfl⟩⟩
  all_goals rw [takeException_cp0, Exc.load_frame]

theorem Effect.keepsSystem {s t : State} : Effect s t → KeepsSystem s t
  | .ordinary h => .of_same h.cp0 h.tlb h.icache
  | .exception e f =>
    have h := takeException_keepsSystem e { s with fsr := f }
    ⟨h.tlb, h.icache, h.trapBase, h.config, h.wired, h.work0, h.work1, h.uBase, h.pBase, h.gBase, h.asid, h.status⟩

theorem KeepsSystem.of_finish {s t : State} {x : Access State} (given : x.finish s = .next t)
    (completes : ∀ u, x = .ok u → KeepsSystem s u) : KeepsSystem s t := by
  obtain done | ⟨e, -, rfl⟩ := Access.finish_eq_next given
  · exact completes t done
  · exact takeException_keepsSystem e s

/-- A load that links touches registers, caches and LLbit only. -/
theorem State.loadLinked_keepsSystem {s t : State} {n : Nat} {extend : Word → Word} {rt base : Reg} {off : Word}
    (given : s.loadLinked n extend rt base off = .ok t) : KeepsSystem s t := by
  obtain ⟨a, -, -, rfl⟩ := State.loadLinked_eq_ok.mp given
  have load : Ordinary s (s.loadFrom a n extend rt) := .cacheOnly (s.loadInt_cacheOnly a.1 a.2 n) _ _
  exact .of_same load.cp0 load.tlb load.icache

/-- An instruction that is not enabled takes its exception instead. -/
theorem KeepsSystem.of_barred {i : Instr} {s t : State} (barred : s.barred i = true) (given : exec i s = .next t) :
    KeepsSystem s t := by
  obtain ⟨e, -, raised⟩ := exec_barred i s barred
  cases raised.symm.trans given
  exact takeException_keepsSystem e s

/-- Settles O47: the instructions that could write the system state are those of coprocessor 0, which are not enabled. -/
theorem userModeKeepsSystemState : Obligations.UserModeKeepsSystemState := by
  intro i s t _ unusable given
  have kept : KeepsSystem s t := by
    cases kind : isOrdinary i with
    | true => exact (exec_effect kind given).keepsSystem
    | false =>
      cases i with
      | ssnop => cases given; exact .of_same rfl rfl rfl
      | ll => exact .of_finish given fun _ => State.loadLinked_keepsSystem
      | lld =>
        refine .of_finish given fun u completes => ?_
        obtain ⟨_, -, completes⟩ := Access.bind_eq_ok.mp completes
        exact State.loadLinked_keepsSystem completes
      | dmtc0 | tlbr | tlbp | tlbw | dctr | dctw | eret =>
        exact .of_barred (by rw [State.barred, guardOf, Guard.passes, unusable]; rfl) given
      | _ => nomatch kind
  exact ⟨kept.tlb, kept.icache, kept.trapBase, kept.config, kept.wired, kept.work0, kept.work1, kept.uBase, kept.pBase,
    kept.gBase, kept.asid, kept.status⟩

/-! ## The entry (R580 to R582) -/

/-- Coprocessor 0 after an entry, by the value of EXL that it found (R580, D33). -/
theorem takeException_cp0_eq (e : Exc) (s : State) : (takeException e s).cp0 = { e.load s.draws s.cp0 with
    epc := if s.statusView.exl then s.cp0.epc else s.resumeAddress
    cause := { s.cp0.cause with
      bd := if s.statusView.exl then s.cp0.cause.bd else s.inSlot, excCode := e.code, ce := e.ce s.draws }
    status := { s.cp0.status with exl := true } } := by
  rw [takeException_cp0, takeException_cause, takeException_status, takeException_epc]

theorem takeException_ce (e : Exc) (s : State) : (takeException e s).cp0.cause.ce = e.ce s.draws := by
  rw [takeException_cause]

theorem takeException_ce_unit {e : Exc} {u : BitVec 2} (s : State) (unit : e = .coprocessorUnusable u) :
    (takeException e s).cp0.cause.ce = u := by
  rw [takeException_ce, unit, Exc.ce]

/-- Where an entry goes with no late write to TrapBase open (R581, R582). -/
theorem takeException_pc_of_closed (e : Exc) {s : State} (status : s.late.status = none) (trapBase : s.late.trapBase = none) :
    (takeException e s).pc = s.cp0.trapBase.vector (if s.cp0.status.exl then 0xc00 else e.offset) := by
  rw [takeException_pc, State.statusView_of_closed status, State.trapBaseView, trapBase, lateView_closed]

theorem StatusReg.set_exl {r : StatusReg} {b : Bool} (same : r.exl = b) : { r with exl := b } = r := by
  subst same
  rfl

/-- Settles O35: the entry written out for either value of EXL, and what the event loads apart from it. -/
theorem exceptionEntry : Obligations.ExceptionEntry := by
  refine ⟨fun e s status trapBase exl => ?_, fun e s status trapBase exl => ?_⟩
  all_goals
    have pc := takeException_pc_of_closed e status trapBase
    have cp0 := takeException_cp0_eq e s
    rw [exl] at pc
    rw [State.statusView_of_closed status, exl, ← takeException_ce e s] at cp0
  · exact ⟨cp0, fun u => takeException_ce_unit s,
      ⟨e.load_frame _ _, fun va => Exc.load_addressError _ _, Exc.load_other _ _⟩,
      pc, rfl, rfl, rfl, rfl, rfl, takeException_keeps e s⟩
  · rw [StatusReg.set_exl exl] at cp0
    refine ⟨?_, ?_, ?_, ?_, fun u => takeException_ce_unit s,
      ⟨e.load_frame _ _, fun va => Exc.load_addressError _ _, Exc.load_other _ _⟩,
      pc, rfl, rfl, rfl, rfl, rfl, takeException_keeps e s⟩
    · rw [← e.load_epc s.draws, ← e.load_status s.draws s.cp0] at cp0
      exact cp0
    · rw [cp0]; rfl
    · rw [cp0]; rfl
    · rw [cp0]

theorem Exc.offset_tlbRefill (st : Bool) (va : Word) (k : Nat) (w : BitVec 2) : (Exc.tlbRefill st va k w).offset =
    if regionOf va = 0 then 0x000 else if regionOf va = 1 then 0x400 else 0x800 := rfl

/-- Settles O36: the vectors from the offsets, and the codes of the table. -/
theorem exceptionCodesAndOffsets : Obligations.ExceptionCodesAndOffsets := by
  refine ⟨fun s st va k w status trapBase exl => ?_, fun s e status trapBase high => ?_, ?_⟩
  · rw [takeException_pc_of_closed _ status trapBase, exl, Exc.offset_tlbRefill]
    refine ⟨fun region => ?_, fun region => ?_, fun region => ?_⟩
    · rw [(regionOf_eq_iff va 0).mpr region]; rfl
    · rw [(regionOf_eq_iff va 1).mpr region]; rfl
    · rw [(regionOf_eq_iff va 3).mpr region]; rfl
  · rw [takeException_pc_of_closed _ status trapBase]
    obtain exl | other := high
    · rw [exl, if_pos rfl]
    · cases e with
      | tlbRefill st va k w => exact absurd rfl (other st va k w)
      | _ => exact congrArg _ (ite_self _)
  · exact fun va k w u => ⟨rfl, rfl, rfl, rfl, rfl, rfl, rfl, rfl, rfl, rfl, rfl, rfl, rfl, rfl, rfl⟩

/-! ## ERET (R522) -/

theorem exec_eret (s : State) : exec .eret s =
    ((needCop0 s).bind fun _ => (needNotInSlot s).bind fun _ => .ok (returnFromException s)).finish s := rfl

/-- A return changes besides the program counter only Status.EXL, LLbit and the model's records (R522, log 57). -/
theorem returnFromException_keeps (s : State) :
    KeepsAllBut s (returnFromException s) [.cp0, .llbit, .hazards, .late] := by
  intro p outside
  cases p with
  | cp0 | llbit | hazards | late => simp at outside
  | regs => exact fun _ => rfl
  | memory => exact fun _ => rfl
  | _ => rfl

/-- Settles O38: behind its two guards ERET returns. -/
theorem exceptionReturn : Obligations.ExceptionReturn := by
  intro s
  refine ⟨.of_pieces rfl rfl, .of_bind (exec_eret s) fun run => ⟨fun slot => refused_of_inSlot slot run, fun free => ?_⟩⟩
  exact ⟨_, run_of_not_inSlot (x := .ok _) free run, rfl, rfl, rfl, rfl, rfl, returnFromException_keeps s⟩

/-- Behind an entry ERET is enabled and in no delay slot, so it returns. -/
theorem exec_eret_takeException (e : Exc) (s : State) :
    exec .eret (takeException e s) = .next (returnFromException (takeException e s)) := by
  have usable : (takeException e s).usable0 = true := by rw [State.usable0, takeException_user]; rfl
  rw [exec_eret, needCop0_ok usable]
  rfl

theorem KeepsAllBut.trans {s t u : State} {parts : List Part} (first : KeepsAllBut s t parts) (second : KeepsAllBut t u parts) :
    KeepsAllBut s u parts := by
  intro p outside
  have h1 := first p outside
  have h2 := second p outside
  cases p with
  | regs => exact fun r => (h2 r).trans (h1 r)
  | memory => exact fun a => (h2 a).trans (h1 a)
  | _ => exact Eq.trans h2 h1

/-- Settles O39: the entry saves the address of the interrupted instruction, the return goes there and clears the EXL that the entry
set. -/
theorem returnResumesInterruptedInstruction : Obligations.ReturnResumesInterruptedInstruction := by
  intro s e status exl
  have epc : (takeException e s).cp0.epc = s.resumeAddress := by
    rw [takeException_epc, State.statusView_of_closed status, exl]; rfl
  refine ⟨_, exec_eret_takeException e s, epc, rfl, rfl, ?_, ?_⟩
  · exact (congrArg ({ · with exl := false }) (takeException_status e s)).trans (StatusReg.set_exl exl)
  · exact ((takeException_keeps e s).mono (by decide)).trans ((returnFromException_keeps _).mono (by decide))

/-! ## NMI (R642) -/

theorem takeNmi_keeps (s : State) : KeepsAllBut s (takeNmi s) [.cp0, .nmiPending, .hazards, .late] := by
  intro p outside
  cases p with
  | cp0 | nmiPending | hazards | late => simp at outside
  | regs => exact fun _ => rfl
  | memory => exact fun _ => rfl
  | _ => rfl

theorem step_of_nmiTaken {s : State} (taken : s.boundary.nmiTaken = true) : step s = .next (takeNmi s.boundary) := by
  rw [step, stepFrom, taken, if_pos rfl]

/-- Settles O40, by the entry's fields and the order of the step. -/
theorem nonMaskableInterrupt : Obligations.NonMaskableInterrupt := by
  refine ⟨fun b => ⟨rfl, rfl, rfl, rfl, rfl, takeNmi_keeps b⟩, fun s => ⟨fun idle => ?_, fun requested => ?_, step_of_nmiTaken⟩⟩
  · rw [State.nmiTaken, idle, Bool.false_and]
  · rw [State.nmiTaken, requested, Bool.true_and]

/-! ## Interrupts (R594) -/

/-- Two words share a set bit (R594, R597). -/
theorem and_ne_zero_iff {w : Nat} (a b : BitVec w) :
    (a &&& b != 0) = true ↔ ∃ n, n < w ∧ a.getLsbD n = true ∧ b.getLsbD n = true := by
  rw [bne_iff_ne, Ne, BitVec.eq_of_getLsbD_eq_iff]
  simp

theorem step_of_interrupted {s : State} (nmi : s.boundary.nmiTaken = false) (interrupted : s.boundary.interrupted = true) :
    step s = .next (takeException .interrupt s.boundary) := by
  rw [step, stepFrom, nmi, if_neg Bool.false_ne_true, interrupted, if_pos rfl]

/-- The condition of an interrupt with no late write to Status or Cause open. -/
theorem State.interruptCondition_iff {b : State} (status : b.late.status = none) (cause : b.late.cause = none) :
    (b.maskable || b.unmaskable) = true ↔ b.cp0.status.exl = false ∧
      ((b.cp0.status.ie = true ∧ ∃ n, n < 11 ∧ b.pendingBits.getLsbD n = true ∧ b.cp0.status.im.getLsbD n = true) ∨
        b.cp0.cause.vci = true ∨ b.cp0.cause.be = true ∨ b.fpiSeen = true) := by
  rw [← and_ne_zero_iff, State.maskable, State.unmaskable, State.statusView_of_closed status, State.causeView_of_closed cause]
  cases b.cp0.status.exl <;> simp [or_assoc]

/-- Settles O41: an interrupt is taken where its condition holds and the free delivery time has come. -/
theorem interruptOnlyWhenEnabled : Obligations.InterruptOnlyWhenEnabled := by
  intro s b status cause enabled
  have condition : (b.maskable || b.unmaskable) = true ↔ enabled := State.interruptCondition_iff status cause
  refine ⟨fun never => ?_, fun holds => ?_, fun nmi interrupted => ⟨_, step_of_interrupted nmi interrupted, rfl, rfl⟩⟩
  · rw [State.interrupted, Bool.eq_false_iff.mpr (mt condition.mp never), Bool.false_and]
  · rw [State.interrupted, condition.mpr holds, Bool.true_and]

end Sys2Proof.Machine

/-! PROOFS. The instructions of coprocessor 0 (47_cop0.md): the moves to and from its registers, the TLB and the tags of the data
cache. -/

namespace Sys2Proof.Machine
open Sys2Proof

/-! ## Encodings and guards -/

section
variable {i : Instr} {s : State} {α : Type} {x : Access α} {f : α → Access State}

theorem refused_of_refuse {r : Refusal} (run : exec i s = (x.bind f).finish s) (failed : x = .refuse r) :
    exec i s = .refused r := by
  rw [run, failed]
  rfl

/-- Where coprocessor 0 is usable an instruction of it does what stands behind its guard. -/
theorem run_of_usable0 {y : Access State} (usable : s.usable0 = true)
    (run : exec i s = ((needCop0 s).bind fun _ => y).finish s) : exec i s = y.finish s := by
  rwa [needCop0_ok usable] at run

theorem needTlbSet_refuse (reserved : s.cp0.tlbSet.set = 3) : needTlbSet s = .refuse .reservedTlbSet := if_pos reserved

/-- TLBR and TLBW do what stands behind the check of TLBSet where SET names a set. -/
theorem run_of_tlbSet {y : Access State} (set : s.cp0.tlbSet.set ≠ 3)
    (run : exec i s = ((needTlbSet s).bind fun _ => y).finish s) : exec i s = y.finish s := by
  rwa [needTlbSet, if_neg set] at run

end


/-! ## What the updates of coprocessor 0, the TLB and the data cache leave alone -/

section
variable {s u : State} {parts : List Part}

/-- Completion changes the program counter and the record of busy condition codes, which are no parts. -/
theorem KeepsAllBut.advance (kept : KeepsAllBut s u parts) : KeepsAllBut s u.advance parts := by
  intro p other
  have same := kept p other
  cases p <;> exact same

theorem State.setCop0_keeps (s : State) (c : Cop0) : KeepsAllBut s { s with cp0 := c } [.cp0] := by
  intro p other
  cases p with
  | cp0 => simp at other
  | regs => exact fun _ => rfl
  | memory => exact fun _ => rfl
  | _ => rfl

theorem State.writeCop0_keeps (s : State) (rd : Reg) (v : Word) : KeepsAllBut s (s.writeCop0 rd v) [.cp0, .late] := by
  intro p other
  cases p with
  | cp0 | late => simp at other
  | regs => exact fun _ => rfl
  | memory => exact fun _ => rfl
  | _ => rfl

theorem State.setTlbEntry_keeps (s : State) (index : BitVec 7) (set : BitVec 2) (e : TlbEntry) :
    KeepsAllBut s (s.setTlbEntry index set e) [.tlb] := by
  intro p other
  cases p with
  | tlb => simp at other
  | regs => exact fun _ => rfl
  | memory => exact fun _ => rfl
  | _ => rfl

theorem State.markedLine_keeps (s : State) (k : Nat) (l : DCacheLine) (written : List (Nat × Bool)) :
    KeepsAllBut s { s.setDline k l with dcacheWritten := written } [.dcache, .dcacheWritten] := by
  intro p other
  cases p with
  | dcache | dcacheWritten => simp at other
  | regs => exact fun _ => rfl
  | memory => exact fun _ => rfl
  | _ => rfl

end

/-! ## DMFC0 (R520) -/

theorem placeField_zero {n : Nat} (v : BitVec n) : placeField v 0 = v.setWidth 64 := BitVec.shiftLeft_zero _

/-- Settles O42: behind its guard DMFC0 writes the general register, and each number reads its image. -/
theorem moveFromCoprocessor0 : Obligations.MoveFromCoprocessor0 := by
  intro s rt rd
  exact ⟨.of_pieces rfl (split_rType ..), .of_bind rfl .of_exec, rfl, rfl, rfl, rfl, rfl, rfl, rfl,
    placeField_zero s.cp0.counts, placeField_zero s.cp0.shiftAmt, rfl, rfl, rfl, rfl, rfl, rfl, rfl, rfl, rfl, rfl, rfl,
    placeField_zero s.cp0.iasid⟩

/-! ## DMTC0 (R521) -/

/-- A write to a read-only register or to a reserved number does nothing (log 56). -/
theorem Cop0.write_other (c : Cop0) {rd : Reg} (v : Word)
    (other : rd ∉ [0, 2, 4, 6, 8, 9, 10, 12, 13, 14, 16, 18, 19, 20, 21, 24, 28, 29]) : c.write rd v = c := by
  have numbers : rd.toNat ∉ [0, 2, 4, 6, 8, 9, 10, 12, 13, 14, 16, 18, 19, 20, 21, 24, 28, 29] := by
    revert rd; decide
  unfold Cop0.write
  split <;> simp_all

/-- The pending bits after a write to Cause: IP0 and IP1 take the written bits, IP8 and IP9 can only be cleared (R43, log 56). -/
theorem CauseReg.getLsbD_written_ip (c : CauseReg) (w : Word) {n : Nat} (bound : n < 10) : (c.written w).ip.getLsbD n =
    if n < 2 then w.getLsbD (8 + n) else if n < 8 then c.ip.getLsbD n else c.ip.getLsbD n && w.getLsbD (8 + n) := by
  have masks : ∀ n < 10, (0b0000000011#10).getLsbD n = decide (n < 2) ∧
      (0b0011111100#10).getLsbD n = decide (2 ≤ n ∧ n < 8) ∧ (0b1100000000#10).getLsbD n = decide (8 ≤ n) := by decide
  obtain ⟨low, mid, high⟩ := masks n bound
  simp only [CauseReg.written, Layout.causeIp, BitVec.getLsbD_or, BitVec.getLsbD_and, BitVec.getLsbD_extractLsb', low, mid, high,
    bound, decide_true, Bool.true_and]
  by_cases written : n < 2
  · simp [written, show ¬2 ≤ n by omega, show ¬8 ≤ n by omega]
  · by_cases kept : n < 8
    · simp [written, kept, show 2 ≤ n by omega, show ¬8 ≤ n by omega]
    · simp [written, kept, show 8 ≤ n by omega]

/-- Cause after a DMTC0 (R43, log 56). -/
theorem CauseReg.written_spec (c : CauseReg) (w : Word) :
    c.written w = { c with ip := (c.written w).ip, vci := (c.written w).vci, nmi := w.getLsbD 27 } ∧
    (c.written w).ip.getLsbD 0 = w.getLsbD 8 ∧ (c.written w).ip.getLsbD 1 = w.getLsbD 9 ∧
    (∀ n, 2 ≤ n → n < 8 → (c.written w).ip.getLsbD n = c.ip.getLsbD n) ∧
    (c.written w).ip.getLsbD 8 = (c.ip.getLsbD 8 && w.getLsbD 16) ∧
    (c.written w).ip.getLsbD 9 = (c.ip.getLsbD 9 && w.getLsbD 17) ∧ (c.written w).vci = (c.vci && w.getLsbD 25) := by
  refine ⟨rfl, c.getLsbD_written_ip w (by decide), c.getLsbD_written_ip w (by decide), fun n above below => ?_,
    c.getLsbD_written_ip w (by decide), c.getLsbD_written_ip w (by decide), rfl⟩
  rw [c.getLsbD_written_ip w (Nat.lt_trans below (by decide)), if_neg (Nat.not_lt.mpr above), if_pos below]

theorem Cop0.write_at {c d : Cop0} {rd number : Reg} {v : Word} (written : c.write number v = d) (same : rd = number) :
    c.write rd v = d := same ▸ written

theorem exec_dmtc0 (rt rd : Reg) (s : State) : exec (.dmtc0 rt rd) s = ((needCop0 s).bind fun _ =>
    if rd = 12 ∧ StatusReg.reservedSet (s.reg rt) then .refuse .statusReservedWrite
    else .ok (s.writeCop0 rd (s.reg rt)).advance).finish s := rfl

/-- Settles O43: behind its guard and the check of Status DMTC0 writes the register of its number. -/
theorem moveToCoprocessor0 : Obligations.MoveToCoprocessor0 := by
  intro s rt rd v
  refine ⟨.of_pieces rfl (split_rType ..), .of_bind (exec_dmtc0 rt rd s) fun run =>
    ⟨fun status reserved => ?_, fun legal => ?_⟩⟩
  · rwa [if_pos ⟨status, reserved⟩] at run
  · rw [if_neg legal] at run
    exact ⟨_, run, ⟨rfl, rfl, rfl⟩, (s.writeCop0_keeps rd v).advance, Cop0.write_at rfl, Cop0.write_at rfl, Cop0.write_at rfl,
      Cop0.write_at rfl, Cop0.write_at rfl, Cop0.write_at rfl, Cop0.write_at rfl, Cop0.write_at rfl, Cop0.write_at rfl,
      Cop0.write_at rfl, Cop0.write_at rfl, Cop0.write_at rfl, Cop0.write_at rfl, Cop0.write_at rfl, Cop0.write_at rfl,
      Cop0.write_at rfl, Cop0.write_at rfl,
      fun cause => ⟨_, Cop0.write_at rfl cause, s.cp0.cause.written_spec v⟩, s.cp0.write_other v⟩

/-! ## The TLB (R524 to R526, R530) -/

theorem tlbKey_inj {i j : BitVec 7} {w x : BitVec 2} : tlbKey j x = tlbKey i w ↔ j = i ∧ x = w := by
  unfold tlbKey
  bv_omega

/-- A TLB entry after one is replaced. -/
theorem State.tlbEntry_setTlbEntry (s : State) (i j : BitVec 7) (w x : BitVec 2) (e : TlbEntry) :
    (s.setTlbEntry i w e).tlbEntry j x = if j = i ∧ x = w then e else s.tlbEntry j x := by
  rw [State.tlbEntry, State.setTlbEntry_tlb, CMap.get_set]
  simp only [tlbKey_inj]
  rfl

section
variable {s : State}

/-- A kernel-physical VAddr selects no entry (R530, U32). -/
theorem State.vAddrEntry_physical (physical : regionOf s.cp0.vAddr = 2) : s.vAddrEntry = .refuse .physicalTlbIndex :=
  if_pos physical

theorem State.vAddrEntry_mapped {k : Nat} (mapped : regionOf s.cp0.vAddr ≠ 2)
    (size : pageBitsOf (pageSizeField s.statusView (regionOf s.cp0.vAddr) false) = some k) :
    s.vAddrEntry = .ok (tlbIndex s.cp0.entryHi.asid s.cp0.vAddr k, k) := by
  unfold State.vAddrEntry
  dsimp only
  rw [if_neg mapped, size]

theorem State.vAddrEntry_reserved (mapped : regionOf s.cp0.vAddr ≠ 2)
    (size : pageBitsOf (pageSizeField s.statusView (regionOf s.cp0.vAddr) false) = none) :
    s.vAddrEntry = .refuse .reservedPageSize := by
  unfold State.vAddrEntry
  dsimp only
  rw [if_neg mapped, size]

end

/-- Settles O45: behind its guards each instruction does its part to the selected entry, or stops where VAddr selects none. -/
theorem tlbReadWriteProbe : Obligations.TlbReadWriteProbe := by
  refine ⟨fun s i k entry => ?_, fun s mapped => ⟨fun k => s.vAddrEntry_mapped mapped, fun size usable => ?_⟩, fun s physical => ?_⟩
  · refine ⟨.of_pieces rfl rfl, .of_pieces rfl rfl, .of_pieces rfl rfl, .of_bind rfl fun run => ⟨fun set => ?_, fun set => ?_⟩,
      .of_bind rfl fun run => ⟨fun set => ?_, fun set => ?_⟩, .of_bind rfl fun run => ?_⟩
    · exact refused_of_refuse run (needTlbSet_refuse set)
    · have completes := runs_of_ok (run_of_tlbSet set run) entry
      refine ⟨_, completes, ⟨rfl, rfl, rfl⟩, ?_, fun j w other => ?_, (s.setTlbEntry_keeps _ _ _).advance⟩
      · exact (s.tlbEntry_setTlbEntry ..).trans (if_pos ⟨rfl, rfl⟩)
      · exact (s.tlbEntry_setTlbEntry ..).trans (if_neg (not_and_or.mpr other))
    · exact refused_of_refuse run (needTlbSet_refuse set)
    · have completes := runs_of_ok (run_of_tlbSet set run) entry
      exact ⟨_, completes, ⟨rfl, rfl, rfl⟩, rfl, (s.setCop0_keeps _).advance⟩
    · have probes := runs_of_ok run entry
      dsimp only at probes
      refine ⟨fun none => ?_, fun w one => ?_, fun w x l several => ?_⟩
      · rw [none] at probes
        exact ⟨_, _, probes, ⟨rfl, rfl, rfl⟩, rfl, (s.setCop0_keeps _).advance⟩
      · rw [one] at probes
        exact ⟨_, probes, ⟨rfl, rfl, rfl⟩, rfl, (s.setCop0_keeps _).advance⟩
      · rwa [several] at probes
  · have reserved := s.vAddrEntry_reserved mapped size
    exact ⟨refused_of_refuse (run_of_usable0 usable rfl) reserved, fun set =>
      ⟨refused_of_refuse (run_of_tlbSet set (run_of_usable0 usable rfl)) reserved,
        refused_of_refuse (run_of_tlbSet set (run_of_usable0 usable rfl)) reserved⟩⟩
  · have none := s.vAddrEntry_physical physical
    exact ⟨.of_bind rfl fun run => refused_of_refuse run none,
      .of_bind rfl fun run set => refused_of_refuse (run_of_tlbSet set run) none,
      .of_bind rfl fun run set => refused_of_refuse (run_of_tlbSet set run) none⟩

/-! ## The tags of the data cache (R527, R528) -/

/-- The valid bits of the words of the half line that are read (R527). -/
theorem DCacheLine.getLsbD_half (l : DCacheLine) (upper : Bool) {n : Nat} (bound : n < 4) :
    (l.half upper).getLsbD n = l.valid.getLsbD (if upper then n + 4 else n) := by
  cases upper <;> simp [DCacheLine.half, bound, Nat.add_comm]

theorem getLsbD_halves (high low : BitVec 4) {n : Nat} (bound : n < 4) :
    (high ++ low).getLsbD n = low.getLsbD n ∧ (high ++ low).getLsbD (n + 4) = high.getLsbD n := by
  rw [BitVec.getLsbD_append, BitVec.getLsbD_append, if_pos bound, if_neg (by omega), Nat.add_sub_cancel]
  exact ⟨rfl, rfl⟩

/-- The valid bits of a line whose one half is written (R528). -/
theorem DCacheLine.getLsbD_writeHalf (l : DCacheLine) (upper : Bool) (r : DCacheReg) {n : Nat} (bound : n < 4) :
    (l.writeHalf upper r).valid.getLsbD n = (if upper then l.valid.getLsbD n else r.v.getLsbD n) ∧
    (l.writeHalf upper r).valid.getLsbD (n + 4) = (if upper then r.v.getLsbD n else l.valid.getLsbD (n + 4)) := by
  cases upper with
  | true =>
    obtain ⟨low, high⟩ := getLsbD_halves r.v (l.valid.extractLsb' 0 4) bound
    exact ⟨low.trans (l.getLsbD_half false bound), high⟩
  | false =>
    obtain ⟨low, high⟩ := getLsbD_halves (l.valid.extractLsb' 4 4) r.v bound
    exact ⟨low, high.trans (l.getLsbD_half true bound)⟩

/-- The record of the half lines that DCTW has written, with one more. -/
theorem State.get_dcacheMark (s : State) (va : Word) (n : Nat) : CMap.get dcacheUnwritten (s.dcacheMark va) n = true ↔
    CMap.get dcacheUnwritten s.dcacheWritten n = true ∨ n = halfIndex va := by
  rw [State.dcacheMark, CMap.get_set]
  split <;> simp_all

/-- Settles O46: behind its guard DCTW writes half of the selected line, and DCTR reads what DCTW has written. -/
theorem dataCacheTagReadWrite : Obligations.DataCacheTagReadWrite := by
  intro s k l
  refine ⟨.of_pieces rfl rfl, .of_pieces rfl rfl, .of_bind rfl fun run => ?_, .of_bind rfl fun run => ?_⟩
  · have line := (s.dline_setDline k k (l.writeHalf (s.cp0.vAddr.getLsbD 4) s.cp0.dCache)).trans (if_pos rfl)
    have valid := fun n (bound : n < 4) => l.getLsbD_writeHalf (s.cp0.vAddr.getLsbD 4) s.cp0.dCache bound
    rw [← line] at valid
    refine ⟨_, run, ⟨rfl, rfl, rfl⟩, (s.markedLine_keeps k _ _).advance, s.get_dcacheMark s.cp0.vAddr, fun j other => ?_,
      (congrArg DCacheLine.tag line :), (congrArg DCacheLine.exclusive line :), (congrArg DCacheLine.data line :), valid⟩
    exact (s.dline_setDline k j _).trans (if_neg other)
  · refine ⟨_, run, ⟨rfl, rfl, rfl⟩, (s.setCop0_keeps _).advance, rfl, fun ready => ?_, fun ready n bound => ?_⟩
    · have ready : s.dcacheTagReady s.cp0.vAddr = true := Bool.or_eq_true_iff.mpr ready
      exact ⟨if_pos ready, if_pos ready⟩
    · have v : (if s.dcacheReady s.cp0.vAddr then l.half (s.cp0.vAddr.getLsbD 4)
          else (DCacheReg.ofWord (Config.freeWord .dcacheUnwritten s.draws)).v) = l.half (s.cp0.vAddr.getLsbD 4) := if_pos ready
      exact (congrArg (·.getLsbD n) v).trans (l.getLsbD_half _ bound)

end Sys2Proof.Machine

/-! PROOFS. What happens between two instructions, and the windows of late writes: bus events (R595, R156, R600, R640),
coherence violations (R154, R596), the floating-point interrupt condition (R597), the counter (R598) and what each late write
leaves in force (R667, R668). -/

namespace Sys2Proof.Machine
open Sys2Proof

/-! ## The fields of Cause.IP

Which of its ten bits the masks of the model select. -/

theorem getLsbD_hardwareIp {n : Nat} (hn : n < 10) : (0b1111111100#10).getLsbD n = decide (2 ≤ n) := by
  revert n; decide

theorem getLsbD_softwareIp {n : Nat} (hn : n < 10) : (0b1100000011#10).getLsbD n = (decide (n < 2) || decide (8 ≤ n)) := by
  revert n; decide

/-- The bit that a parity error of a bank sets (R600). -/
theorem getLsbD_parityIp (odd : Bool) {n : Nat} (hn : n < 10) :
    (if odd then 0b1000000000#10 else 0b0100000000#10).getLsbD n = (n == if odd then 9 else 8) := by
  revert n; revert odd; decide

/-! ## Bus events -/

/-- A transfer loads IP7 to IP2 and leaves the other bits (R595). -/
theorem State.interruptStatus_ip (s : State) (ipEn nmiEn beEn : Bool) (ip : BitVec 6) (nmi be : Bool) {n : Nat} (hn : n < 10) :
    (s.interruptStatus ipEn nmiEn beEn ip nmi be).cp0.cause.ip.getLsbD n =
      if ipEn = true ∧ 2 ≤ n ∧ n < 8 then ip.getLsbD (n - 2) else s.cp0.cause.ip.getLsbD n := by
  cases ipEn with
  | false => exact (if_neg fun h => Bool.false_ne_true h.1).symm
  | true =>
    have load : (s.interruptStatus true nmiEn beEn ip nmi be).cp0.cause.ip =
        (s.cp0.cause.ip &&& 0b1100000011#10) ||| (ip.setWidth 10 <<< 2) := rfl
    have loaded : (ip.setWidth 10 <<< 2).getLsbD n = (decide (2 ≤ n) && ip.getLsbD (n - 2)) := by
      rw [BitVec.getLsbD_shiftLeft, BitVec.getLsbD_setWidth, decide_eq_true hn, decide_eq_true (show n - 2 < 10 by omega),
        ← decide_not, Bool.true_and, Bool.true_and]
      simp only [Nat.not_lt]
    rw [load, BitVec.getLsbD_or, BitVec.getLsbD_and, getLsbD_softwareIp hn, loaded]
    by_cases low : n < 2
    · simp [low, show ¬2 ≤ n by omega]
    · by_cases high : 8 ≤ n
      · simp [high, show ¬n < 8 by omega, BitVec.getLsbD_of_ge ip (n - 2) (by omega)]
      · simp [low, high, show 2 ≤ n by omega, show n < 8 by omega]

theorem State.interruptStatus_keeps (s : State) (ipEn nmiEn beEn : Bool) (ip : BitVec 6) (nmi be : Bool) :
    KeepsAllBut s (s.interruptStatus ipEn nmiEn beEn ip nmi be) [.cp0, .nmiPending] := by
  intro p hp
  cases p <;> simp_all [Keeps, State.interruptStatus, State.reg]

theorem State.parityError_ip (s : State) (odd : Bool) {n : Nat} (hn : n < 10) :
    (s.parityError odd).cp0.cause.ip.getLsbD n = (s.cp0.cause.ip.getLsbD n || n == (if odd then 9 else 8)) := by
  rw [← getLsbD_parityIp odd hn, ← BitVec.getLsbD_or]
  rfl

theorem State.parityError_keeps (s : State) (odd : Bool) : KeepsAllBut s (s.parityError odd) [.cp0] := by
  intro p hp
  cases p <;> simp_all [Keeps, State.parityError, State.reg]

theorem State.dline_invalidateLine (s : State) (line : BitVec 9) (k : Nat) :
    (s.invalidateLine line).dline k =
      if k = line.toNat then { s.dline line.toNat with valid := 0 } else s.dline k :=
  s.dline_setDline _ _ _

theorem State.invalidateLine_keeps (s : State) (line : BitVec 9) :
    KeepsAllBut s (s.invalidateLine line) [.dcache, .llbit] := by
  intro p hp
  cases p <;> simp_all [Keeps, State.invalidateLine, State.setDline, State.reg]

/-! ## The counter and IP10 (R38, R43, R598) -/

theorem State.tick_stands {s : State} (ice : s.configView.ice = true) (exl : s.statusView.exl = true) : s.tick = s := by
  rw [State.tick, ice, exl, Bool.true_and, if_pos rfl]

theorem State.tick_advances {s : State} (runs : ¬(s.configView.ice = true ∧ s.statusView.exl = true)) :
    s.tick = { s with cp0 := { s.cp0 with
      counts := s.cp0.counts + 1 + BitVec.ofNat 32 (Config.freeNat .cycles s.draws) } } := by
  rw [State.tick, if_neg (by rwa [Bool.and_eq_true])]

theorem State.ip10_of_closed {s : State} (closed : s.late.counts = none) : s.ip10 = s.cp0.counts.getLsbD 31 := by
  rw [State.ip10, closed, lateView_closed]

/-- DMFC0 of Cause reads IP10 and FPI, which are no storage (R43, R597). -/
theorem State.readCop0_cause (s : State) :
    (s.readCop0 13).getLsbD 18 = s.ip10 ∧ (s.readCop0 13).getLsbD 24 = s.fpiSeen := by
  have fields := (s.cp0.cause.image_holds s.fpiSeen s.ip10).readFrom
  simp only [CauseReg.fields, List.forall_mem_cons, BitField.readFrom_bit, BitField.readFrom_of] at fields
  obtain ⟨-, -, -, -, -, fpi, -, ip10, -⟩ := fields
  exact ⟨ip10, fpi⟩

theorem State.pendingBits_low (s : State) {n : Nat} (hn : n < 10) :
    s.pendingBits.getLsbD n = s.causeView.ip.getLsbD n := by
  rw [State.pendingBits, BitVec.getLsbD_append, if_pos hn]

theorem State.pendingBits_ip10 (s : State) : s.pendingBits.getLsbD 10 = s.ip10 := by
  rw [State.pendingBits, BitVec.getLsbD_append]
  simp

/-! ## The floating-point interrupt condition (R597) -/

theorem State.followFpi_eq_self_iff (s : State) :
    s.followFpi = s ↔ s.fsr.fpi = s.fpiSeen ∨ Config.freeBool .fpi s.draws = false := by
  unfold State.followFpi
  by_cases seen : s.fsr.fpi = s.fpiSeen
  · simp [seen]
  · cases Config.freeBool .fpi s.draws with
    | false => simp
    | true =>
      have differs : ({ s with fpiSeen := s.fsr.fpi } : State) ≠ s := fun same => seen (congrArg State.fpiSeen same)
      simp [seen, differs]

theorem Fsr.fpi_iff (f : Fsr) : f.fpi = true ↔
    (∃ n, n < 5 ∧ f.flags.getLsbD n = true ∧ f.enable.getLsbD n = true) ∨ f.e = true := by
  rw [← and_ne_zero_iff, Fsr.fpi, Bool.or_eq_true]

/-! ## Coherence violations (R154, R596) -/

theorem State.synonym_setSynonym (s : State) (pa : PAddr) (vs : BitVec 4) :
    (s.setSynonym pa vs).synonym pa = some vs := (s.scache_setSynonym pa vs (sectorOf pa)).trans (if_pos rfl)

theorem State.setSynonym_keeps (s : State) (pa : PAddr) (vs : BitVec 4) : KeepsAllBut s (s.setSynonym pa vs) [.scache] := by
  intro p hp
  cases p <;> simp_all [Keeps, State.setSynonym, State.reg]

section
variable {s : State} {va : Word} {t : Translation}

theorem State.floatSynonym_uncachable (uncachable : t.cachable = false) : s.floatSynonym va t = s := by
  rw [State.floatSynonym, if_neg (by simp [uncachable])]

theorem State.floatSynonym_new (cachable : t.cachable = true) (free : s.synonym t.pa = none) :
    s.floatSynonym va t = s.setSynonym t.pa (synonymOf va) := by
  rw [State.floatSynonym, if_pos cachable, free]

theorem State.floatSynonym_same (held : s.synonym t.pa = some (synonymOf va)) : s.floatSynonym va t = s := by
  rw [State.floatSynonym, held]
  simp

/-- Under another synonym the sector was lost and is taken anew, or hardware interlocks, or a violation is noted (log 43). -/
theorem State.floatSynonym_other (cachable : t.cachable = true) {vs : BitVec 4} (held : s.synonym t.pa = some vs)
    (other : vs ≠ synonymOf va) : s.floatSynonym va t =
      if Config.freeBool .sectorReplaced s.draws then (s.dropSector vs t.pa).setSynonym t.pa (synonymOf va)
      else if s.configView.smm then s else s.noteViolation va t.pa := by
  rw [State.floatSynonym, if_pos cachable, held]
  exact if_neg other

end

/-- What is captured of a violation: nothing while VCI is set or an address waits (R36, R596). -/
theorem State.noteViolation_eq (s : State) (va : Word) (pa : PAddr) :
    s.noteViolation va pa = { s with vciPending := s.vciPending ++
      [if s.causeView.vci = true ∨ (∃ v ∈ s.vciPending, v.isSome = true) then none else some ⟨pa, va.extractLsb' 12 4⟩] } := by
  simp [State.noteViolation, synonymOf]

theorem State.dropSector_synonym_keeps (s : State) (vs new : BitVec 4) (pa : PAddr) (held : s.synonym pa = some vs)
    (other : vs ≠ new) :
    KeepsAllBut s ((s.dropSector vs pa).setSynonym pa new) [.dcache, .scache, .llbit] := by
  intro p hp
  exact (s.dropSector_setSynonym_cacheOnly vs new pa held other).keeps p (by simp_all)

theorem State.dropSector_llbit (s : State) (vs new : BitVec 4) (pa : PAddr) :
    ((s.dropSector vs pa).setSynonym pa new).llbit = false := rfl

theorem findSome?_of_uncaptured {l : List (Option BadPAddrReg)} (uncaptured : ∀ v, some v ∉ l) : l.findSome? id = none := by
  rw [List.findSome?_eq_none_iff]
  intro x hx
  cases x with
  | none => rfl
  | some v => exact absurd hx (uncaptured v)

theorem findSome?_first_captured {l m : List (Option BadPAddrReg)} {v : BadPAddrReg} (uncaptured : ∀ w, some w ∉ l) :
    (l ++ some v :: m).findSome? id = some v := by
  rw [List.findSome?_append, findSome?_of_uncaptured uncaptured]
  rfl

section
variable {s : State} {n : Nat} (pos : 0 < n) (le : n ≤ s.vciPending.length)
include pos le

theorem State.postViolations_badPAddr : (s.postViolations n).cp0.badPAddr =
    ((s.vciPending.take n).findSome? id).getD s.cp0.badPAddr := by
  rw [s.postViolations_pos pos le]

theorem State.postViolations_cp0 : (s.postViolations n).cp0 = { s.cp0 with
    cause := { s.cp0.cause with vci := true }, badPAddr := (s.postViolations n).cp0.badPAddr } := by
  rw [s.postViolations_pos pos le]

theorem State.postViolations_vciPending : (s.postViolations n).vciPending = s.vciPending.drop n := by
  rw [s.postViolations_pos pos le]

theorem State.postViolations_stays : Stays s (s.postViolations n) := by
  rw [s.postViolations_pos pos le]
  exact ⟨rfl, rfl, rfl, rfl⟩

theorem State.postViolations_keeps : KeepsAllBut s (s.postViolations n) [.cp0, .vciPending] := by
  rw [s.postViolations_pos pos le]
  intro p hp
  cases p <;> simp_all [Keeps, State.reg]

end

/-! ## The windows of late writes (R667, R668; log 47) -/

theorem State.openWindow_other (s : State) {rd : Reg} (other : rd ∉ ([6, 9, 12, 13, 16, 24, 29] : List Reg)) :
    s.openWindow rd = s.late := by
  have numbers : rd.toNat ∉ [6, 9, 12, 13, 16, 24, 29] := by revert rd; decide
  unfold State.openWindow
  split <;> simp_all

/-- One more SSNOP brings an open window nearer its end. -/
theorem LateReg.tick_open {α : Type} {w : Option (LateReg α)} (n : Nat) (old : α) (isOpen : w = some ⟨old, n⟩) :
    LateReg.tick w = if n ≤ 1 then none else some ⟨old, n - 1⟩ := by
  rw [isOpen]
  rfl

theorem lateView_of_closed {α : Type} {w : Option (LateReg α)} (site : FreeSite) (draws : Nat) (new : α) (closed : w = none) :
    lateView w site draws new = new := by
  rw [closed, lateView_closed]

/-- Inside a window the value in force is the old or the new one. -/
theorem lateView_open {α : Type} {w : Option (LateReg α)} {old : α} {n : Nat} (isOpen : w = some ⟨old, n⟩) (site : FreeSite)
    (draws : Nat) (new : α) : lateView w site draws new = old ∨ lateView w site draws new = new := by
  rw [isOpen, lateView]
  exact ite_eq_or_eq _ _ _

/-- The page sizes in force are always the new ones (R667). -/
theorem State.statusView_pageSizes (s : State) :
    s.statusView.ups = s.cp0.status.ups ∧ s.statusView.kps = s.cp0.status.kps := by
  unfold State.statusView
  split <;> exact ⟨rfl, rfl⟩

theorem CauseReg.getLsbD_unwritten_ip (now old : CauseReg) {k : Nat} (hk : k < 10) :
    (now.unwritten old).ip.getLsbD k =
      (now.ip.getLsbD k && decide (2 ≤ k) || old.ip.getLsbD k && (decide (k < 2) || decide (8 ≤ k))) := by
  rw [← getLsbD_hardwareIp hk, ← getLsbD_softwareIp hk, ← BitVec.getLsbD_and, ← BitVec.getLsbD_and, ← BitVec.getLsbD_or]
  rfl

/-- Cause in force is Cause, or inside a window Cause before the write took effect (R668). -/
theorem State.causeView_open {s : State} {old : CauseReg} {n : Nat} (isOpen : s.late.cause = some ⟨old, n⟩) :
    s.causeView = s.cp0.cause.unwritten old ∨ s.causeView = s.cp0.cause := by
  rw [State.causeView, isOpen]
  exact ite_eq_or_eq _ _ _

/-- The fields of Cause that no DMTC0 writes agree (R43). -/
def CauseReg.SameHardware (view new : CauseReg) : Prop :=
  view.bd = new.bd ∧ view.ce = new.ce ∧ view.be = new.be ∧ view.excCode = new.excCode ∧
    ∀ k, 2 ≤ k → k < 8 → view.ip.getLsbD k = new.ip.getLsbD k

theorem CauseReg.unwritten_sameHardware (now old : CauseReg) : (now.unwritten old).SameHardware now := by
  refine ⟨rfl, rfl, rfl, rfl, fun k low high => ?_⟩
  rw [getLsbD_unwritten_ip now old (by omega)]
  simp [low, show ¬k < 2 by omega, show ¬8 ≤ k by omega]

theorem State.causeView_sameHardware (s : State) : s.causeView.SameHardware s.cp0.cause := by
  unfold State.causeView
  split
  · exact ⟨rfl, rfl, rfl, rfl, fun _ _ _ => rfl⟩
  · split
    · exact CauseReg.unwritten_sameHardware _ _
    · exact ⟨rfl, rfl, rfl, rfl, fun _ _ _ => rfl⟩

/-- Each field that a DMTC0 writes is the old or the new one. -/
def CauseReg.Between (view old new : CauseReg) : Prop :=
  (view.nmi = old.nmi ∨ view.nmi = new.nmi) ∧ (view.vci = old.vci ∨ view.vci = new.vci) ∧
    ∀ k, k < 10 → view.ip.getLsbD k = old.ip.getLsbD k ∨ view.ip.getLsbD k = new.ip.getLsbD k

theorem or_eq_left_or_right (a b : Bool) : (a || b) = b ∨ (a || b) = a := by
  cases a
  · exact .inl rfl
  · exact .inr rfl

theorem CauseReg.unwritten_between (now old : CauseReg) : (now.unwritten old).Between old now := by
  refine ⟨.inl rfl, or_eq_left_or_right _ _, fun k hk => ?_⟩
  rw [getLsbD_unwritten_ip now old hk]
  by_cases low : k < 2
  · simp [low, show ¬2 ≤ k by omega]
  · by_cases high : 8 ≤ k
    · simpa [high, show 2 ≤ k by omega] using or_eq_left_or_right (now.ip.getLsbD k) (old.ip.getLsbD k)
    · simp [low, high, show 2 ≤ k by omega]

theorem State.causeView_between {s : State} {old : CauseReg} {n : Nat} (isOpen : s.late.cause = some ⟨old, n⟩) :
    s.causeView.Between old s.cp0.cause := by
  rcases s.causeView_open isOpen with before | after
  · rw [before]
    exact CauseReg.unwritten_between _ _
  · rw [after]
    exact ⟨.inr rfl, .inr rfl, fun _ _ => .inr rfl⟩

/-- Settles O60, one rule for each part of the boundary and for each window. -/
theorem eventsAndLateWrites : Obligations.EventsAndLateWrites := by
  refine ⟨fun s ipEn nmiEn beEn ip nmi be => ⟨rfl, fun n hn => s.interruptStatus_ip _ _ _ _ _ _ hn, rfl, ⟨rfl, rfl, rfl, rfl⟩,
      s.interruptStatus_keeps _ _ _ _ _ _⟩,
    fun s line => ⟨(s.dline_invalidateLine line _).trans (if_pos rfl), rfl,
      fun k hk => (s.dline_invalidateLine line k).trans (if_neg hk), ⟨rfl, rfl, rfl, rfl⟩, s.invalidateLine_keeps line⟩,
    fun s odd => ⟨rfl, fun n hn => s.parityError_ip odd hn, ⟨rfl, rfl, rfl, rfl⟩, s.parityError_keeps odd⟩,
    fun s => ⟨rfl, rfl, rfl, rfl, rfl, rfl, rfl, rfl, rfl, rfl, rfl, rfl⟩,
    fun s => ⟨State.takeInput_none, fun e l => State.takeInput_some, rfl, rfl⟩,
    fun s => ?counter, fun s => ?fpi, fun s va t => ?synonyms, fun s => ?posting,
    fun s rd => ⟨s.openWindow_other, rfl, rfl, rfl, rfl, rfl, rfl, rfl⟩, fun s rd v => rfl, fun s => ?ssnop, fun s => ?status,
    fun s => ?views, fun s => ?cause⟩
  case counter =>
    refine ⟨State.tick_stands, State.tick_advances, fun closed => ?_, s.pendingBits_ip10, fun n => s.pendingBits_low⟩
    rw [s.readCop0_cause.1, s.ip10_of_closed closed]
    exact ⟨rfl, rfl⟩
  case fpi => exact ⟨s.followFpi_eq, s.followFpi_eq_self_iff, s.fsr.fpi_iff, s.readCop0_cause.2⟩
  case synonyms =>
    refine ⟨t.cachable_iff, State.floatSynonym_uncachable, fun cachable free => ?_, State.floatSynonym_same,
      fun vs cachable held other => ?_⟩
    · rw [State.floatSynonym_new cachable free]
      exact ⟨s.synonym_setSynonym _ _, s.setSynonym_keeps _ _⟩
    · rw [State.floatSynonym_other cachable held other]
      refine ⟨fun lost => ?_, fun stays interlock => ?_, fun stays detect => ?_⟩
      · rw [if_pos lost]
        have kept := s.dropSector_synonym_keeps vs _ t.pa held other
        exact ⟨State.synonym_setSynonym _ _ _, State.dropSector_llbit _ _ _ _, kept .vciPending (by decide), kept⟩
      · simp [stays, interlock]
      · simp [stays, detect, State.noteViolation_eq]
  case posting =>
    refine ⟨fun none => ?_, s.postViolations_zero, s.postViolation_eq, fun n pos le => ?_⟩
    · simp [State.postViolation, none]
    · refine ⟨State.postViolations_vciPending pos le, State.postViolations_cp0 pos le, fun uncaptured => ?_,
        fun v l m taken uncaptured => ?_, State.postViolations_stays pos le, State.postViolations_keeps pos le⟩
      · rw [State.postViolations_badPAddr pos le, findSome?_of_uncaptured uncaptured, Option.getD_none]
      · rw [State.postViolations_badPAddr pos le, taken, findSome?_first_captured uncaptured, Option.getD_some]
  case ssnop =>
    exact ⟨{ s.advance with late := s.late.tick }, rfl, LateReg.tick_open, LateReg.tick_open, LateReg.tick_open,
      LateReg.tick_open, LateReg.tick_open, LateReg.tick_open, LateReg.tick_open⟩
  case status =>
    refine ⟨State.statusView_of_closed, s.statusView_pageSizes.1, s.statusView_pageSizes.2, fun old n isOpen => ?_⟩
    rw [State.statusView, isOpen]
    refine ⟨?_, ?_, ?_, ?_, ?_, ?_, ?_, ?_, ?_, ?_, ?_⟩ <;> exact ite_eq_or_eq _ _ _
  case views =>
    exact ⟨lateView_of_closed _ _ _, fun old n isOpen => lateView_open isOpen _ _ _, lateView_of_closed _ _ _,
      fun old n isOpen => lateView_open isOpen _ _ _, lateView_of_closed _ _ _, fun old n isOpen => lateView_open isOpen _ _ _,
      lateView_of_closed _ _ _, fun old n isOpen => lateView_open isOpen _ _ _, s.ip10_of_closed,
      fun old n isOpen => lateView_open isOpen _ _ _⟩
  case cause =>
    obtain ⟨bd, ce, be, excCode, ip⟩ := s.causeView_sameHardware
    exact ⟨State.causeView_of_closed, bd, ce, be, excCode, ip, fun old n isOpen => s.causeView_between isOpen⟩

end Sys2Proof.Machine

/-! PROOFS. The hazard table (70_reset_and_hazards.md R660 to R668, R671; log 46): which pairs ask for SSNOPs, which
instruction plays which part, what the record of earlier instructions holds, and that a pair too close is refused. -/

namespace Sys2Proof.Machine
open Sys2Proof

/-! ## Rows of the table -/

section
variable {b : HazardRole} {rd : Reg}

theorem afterDmtc0_rows (asked : afterDmtc0 .table rd b ≠ 0) :
    (b = .link ∨ ∃ r, b = .dmfc0 r ∨ b = .dmtc0 r) ∨
      (rd = 8 ∧ b ∈ [.tlbr, .tlbw, .tlbp, .dctr, .dctw, .memory true]) ∨
      (rd ∈ ([12, 0, 10, 2] : List Reg) ∧ b ∈ [.tlbr, .tlbw, .tlbp]) ∨
      (rd = 28 ∧ b = .dctw) ∨ ((rd = 14 ∨ rd = 12) ∧ b = .eret) := by
  by_contra noRow
  cases b <;> simp_all [afterDmtc0, HazardRole.isTlbOp, byPolicy]

theorem dmfc0_rows (asked : ssnopsRequired .table .dmfc0 b ≠ 0) : b = .link ∨ ∃ r, b = .dmfc0 r ∨ b = .dmtc0 r := by
  cases b <;> simp_all [ssnopsRequired]

theorem link_rows (asked : ssnopsRequired .table .link b ≠ 0) : ∃ r, b = .dmfc0 r ∨ b = .dmtc0 r := by
  cases b <;> simp_all [ssnopsRequired]

theorem tlbr_rows (asked : ssnopsRequired .table .tlbr b ≠ 0) :
    (∃ store, b = .memory store) ∨ b = .dmtc0 8 ∨ b ∈ [.dmfc0 10, .dmfc0 2, .dmtc0 10, .dmtc0 2] := by
  by_contra noRow
  cases b <;> simp_all [ssnopsRequired]

theorem tlbw_rows (asked : ssnopsRequired .table .tlbw b ≠ 0) : (∃ store, b = .memory store) ∨ b = .dmtc0 8 := by
  cases b <;> simp_all [ssnopsRequired]

theorem tlbp_rows (asked : ssnopsRequired .table .tlbp b ≠ 0) :
    (∃ store, b = .memory store) ∨ b = .dmtc0 8 ∨ b ∈ [.dmfc0 0, .dmtc0 0] := by
  by_contra noRow
  cases b <;> simp_all [ssnopsRequired]

theorem dctr_rows (asked : ssnopsRequired .table .dctr b ≠ 0) : b = .dmtc0 8 ∨ b ∈ [.dmfc0 28, .dmtc0 28] := by
  by_contra noRow
  cases b <;> simp_all [ssnopsRequired]

theorem dctw_rows (asked : ssnopsRequired .table .dctw b ≠ 0) : b = .dmtc0 8 := by
  cases b <;> simp_all [ssnopsRequired]

theorem intStore_rows (asked : ssnopsRequired .table .intStore b ≠ 0) : b = .dmtc0 8 := by
  cases b <;> simp_all [ssnopsRequired]

theorem pageSizeChange_rows (asked : ssnopsRequired .table .pageSizeChange b ≠ 0) : ∃ store, b = .memory store := by
  cases b <;> simp_all [ssnopsRequired]

theorem asidChange_rows (asked : ssnopsRequired .table .asidChange b ≠ 0) : ∃ store, b = .memory store := by
  cases b <;> simp_all [ssnopsRequired]

end

/-! ## The part an instruction plays -/

/-- The only instructions that play a part of their own; loads, stores, prefetches and linking transfers share theirs. -/
def HazardRole.PlayedBy : HazardRole → Instr → Prop
  | .dmfc0 rd, i => ∃ rt, i = .dmfc0 rt rd
  | .dmtc0 rd, i => ∃ rt, i = .dmtc0 rt rd
  | .tlbr, i => i = .tlbr
  | .tlbw, i => i = .tlbw
  | .tlbp, i => i = .tlbp
  | .dctr, i => i = .dctr
  | .dctw, i => i = .dctw
  | .plain, _ | .link, _ | .memory _, _ | .eret, _ => True

theorem hazardRole_playedBy (i : Instr) : (hazardRole i).PlayedBy i := by
  cases i <;> simp [hazardRole, HazardRole.PlayedBy]

section
variable (s : State) {i : Instr} {k : HazardKind} {rd rt : Reg} {v : Word}

theorem State.mem_changes : k ∈ s.changes rd v ↔
    (k = .pageSizeChange ∧ rd = 12 ∧
      ((StatusReg.ofWord v).ups ≠ s.cp0.status.ups ∨ (StatusReg.ofWord v).kps ≠ s.cp0.status.kps)) ∨
    (k = .dmChange ∧ rd = 12 ∧ (StatusReg.ofWord v).dm ≠ s.cp0.status.dm) ∨
    (k = .asidChange ∧ rd = 10 ∧ (TlbHi.ofWord v).asid ≠ s.cp0.entryHi.asid) := by
  simp only [State.changes, List.mem_append, List.mem_ite_nil_right, List.mem_singleton]
  tauto

theorem State.mem_hazardKinds_dmtc0 :
    k ∈ s.hazardKinds (.dmtc0 rt rd) ↔ k = .dmtc0 rd ∨ k ∈ s.changes rd (s.reg rt) := List.mem_cons

theorem State.hazardKinds_of_link (link : hazardRole i = .link) : s.hazardKinds i = [.link] := by
  rw [State.hazardKinds, link]

theorem State.hazardKinds_of_intStore (store : hazardRole i = .memory true) : s.hazardKinds i = [.intStore] := by
  rw [State.hazardKinds, store]
  rfl

/-- An instruction is recorded as the part it plays, a DMTC0 also as what it changes (R668). -/
theorem State.recorded_as_role (recorded : k ∈ s.hazardKinds i) :
    (k = .dmfc0 ∧ ∃ x r, i = .dmfc0 x r) ∨
    (∃ x r, i = .dmtc0 x r ∧ (k = .dmtc0 r ∨ k ∈ [.asidChange, .pageSizeChange, .dmChange])) ∨
    (k = .tlbr ∧ i = .tlbr) ∨ (k = .tlbw ∧ i = .tlbw) ∨ (k = .tlbp ∧ i = .tlbp) ∨ (k = .dctr ∧ i = .dctr) ∨
    (k = .dctw ∧ i = .dctw) ∨ (k = .link ∧ hazardRole i = .link) ∨ (k = .intStore ∧ hazardRole i = .memory true) := by
  have player := hazardRole_playedBy i
  cases role : hazardRole i with
  | dmtc0 rd =>
    rw [role] at player
    obtain ⟨rt, rfl⟩ := player
    have part : k = .dmtc0 rd ∨ k ∈ [.asidChange, .pageSizeChange, .dmChange] := by
      rcases s.mem_hazardKinds_dmtc0.mp recorded with write | change
      · exact .inl write
      · rcases s.mem_changes.mp change with ⟨rfl, -⟩ | ⟨rfl, -⟩ | ⟨rfl, -⟩ <;> simp
    exact .inr (.inl ⟨rt, rd, rfl, part⟩)
  | memory store =>
    cases store with
    | true =>
      rw [s.hazardKinds_of_intStore role, List.mem_singleton] at recorded
      simp [recorded]
    | false => simp [State.hazardKinds, role] at recorded
  | dmfc0 rd =>
    rw [role] at player
    obtain ⟨rt, rfl⟩ := player
    exact .inl ⟨List.mem_singleton.mp recorded, rt, rd, rfl⟩
  | link | tlbr | tlbw | tlbp | dctr | dctw | plain | eret =>
    simp_all [State.hazardKinds, HazardRole.PlayedBy]

/-- The record after one more instruction: that instruction, and the earlier ones one further away. -/
theorem State.mem_recordHazards {e : HazardEntry} : e ∈ (s.recordHazards i).hazards ↔
    (e.kind ∈ s.hazardKinds i ∧ e.ssnops = 0 ∧ e.insns = 0) ∨
    ∃ o ∈ s.hazards, e = ⟨o.kind, o.ssnops + (if i = .ssnop then 1 else 0), o.insns + 1⟩ ∧ e.kind ∉ s.hazardKinds i ∧
      (e.ssnops < 4 ∨ e.kind = .dmChange) := by
  have new : e ∈ (s.hazardKinds i).map (fun k => (⟨k, 0, 0⟩ : HazardEntry)) ↔
      e.kind ∈ s.hazardKinds i ∧ e.ssnops = 0 ∧ e.insns = 0 := by
    obtain ⟨kind, ssnops, insns⟩ := e
    simp [eq_comm]
  have aged (o : HazardEntry) :
      o.age (i == .ssnop) = ⟨o.kind, o.ssnops + (if i = .ssnop then 1 else 0), o.insns + 1⟩ := by
    by_cases ssnop : i = .ssnop <;> simp [HazardEntry.age, ssnop]
  have kept : (e.live && !(s.hazardKinds i).contains e.kind) = true ↔
      e.kind ∉ s.hazardKinds i ∧ (e.ssnops < 4 ∨ e.kind = .dmChange) := by
    simp [HazardEntry.live, and_comm]
  rw [State.recordHazards, List.mem_append, new, List.mem_filter, List.mem_map, kept]
  simp only [aged]
  constructor
  · rintro (fresh | ⟨⟨o, ho, rfl⟩, live⟩)
    · exact .inl fresh
    · exact .inr ⟨o, ho, rfl, live⟩
  · rintro (fresh | ⟨o, ho, rfl, live⟩)
    · exact .inl fresh
    · exact .inr ⟨⟨o, ho, rfl⟩, live⟩

/-- A violation is a row of the table not kept, or a floating-point instruction too soon after a change of DM (R668, R671). -/
theorem State.hazardViolation_iff : s.hazardViolation i = true ↔
    (∃ e ∈ s.hazards, e.ssnops < ssnopsRequired .table e.kind (hazardRole i) ∧
      ¬(e.kind = .dmtc0 2 ∧ hazardRole i = .tlbw ∧ e.insns = 0)) ∨
    (isFloat i = true ∧ ∃ e ∈ s.hazards, e.kind = .dmChange ∧ e.insns < Config.fpDmWait) := by
  have violates (e : HazardEntry) : e.violates Config.hazardPolicy (hazardRole i) = true ↔
      e.ssnops < ssnopsRequired .table e.kind (hazardRole i) ∧
        ¬(e.kind = .dmtc0 2 ∧ hazardRole i = .tlbw ∧ e.insns = 0) := by
    rw [HazardEntry.violates, Config.hazardPolicy]
    by_cases exempt : e.kind = .dmtc0 2 ∧ hazardRole i = .tlbw ∧ e.insns = 0
    · simp [exempt]
    · rw [if_neg exempt, decide_eq_true_iff]
      exact (and_iff_left exempt).symm
  simp [State.hazardViolation, violates, HazardEntry.modeChanged]

end

/-! ## Running an instruction -/

section
variable {s : State} {i : Instr}

theorem runInstr_of_violation (enabled : s.barred i = false) (tooClose : s.hazardViolation i = true) :
    runInstr i s = .refused .hazardViolation := by
  rw [runInstr, tooClose, enabled]
  rfl

/-- What is not enabled is executed, to raise its exception, however close it comes (R572). -/
theorem runInstr_of_barred (barred : s.barred i = true) : runInstr i s = exec i (s.recordHazards i) := by
  rw [runInstr, barred, Bool.not_true, Bool.and_false, if_neg Bool.false_ne_true]

end

/-- Settles O49: a violation decides between refusing and running, and the table, the parts and the record are as listed. -/
theorem hazardPairsRefused : Obligations.HazardPairsRefused := by
  refine ⟨fun s w i decoded => ?run, fun s i => s.hazardViolation_iff, fun q r store => ?counts, fun x q r o j h => ?parts,
    fun a b asked => ?rows, fun i plays => ?players, fun s i k => s.recorded_as_role, fun s i e => s.mem_recordHazards,
    fun s rt rd => ?recorded⟩
  case run =>
    rw [runWord_of_decodes decoded]
    refine ⟨runInstr_of_violation, runInstr_of_no_violation, fun barred => ?_⟩
    rw [runInstr_of_barred barred]
    exact exec_barred i _ barred
  case counts =>
    simp [ssnopsRequired, afterDmtc0, byPolicy, HazardRole.isTlbOp]
  case parts =>
    simp [hazardRole]
  case rows =>
    cases a with
    | dmfc0 => exact .inl ⟨.inl rfl, dmfc0_rows asked⟩
    | dmtc0 rd =>
      rcases afterDmtc0_rows asked with move | ⟨rfl, vAddr⟩ | ⟨listed, tlbOp⟩ | ⟨rfl, dctw⟩ | ⟨number, eret⟩
      · exact .inl ⟨.inr ⟨rd, rfl⟩, move⟩
      · simp [vAddr]
      · have tlbRow : ∃ q ∈ ([12, 0, 10, 2] : List Reg), HazardKind.dmtc0 rd = .dmtc0 q := ⟨rd, listed, rfl⟩
        simp only [tlbRow, tlbOp, and_self, true_or, or_true]
      · simp [dctw]
      · simpa [eret] using number
    | link => exact .inr (.inl ⟨rfl, link_rows asked⟩)
    | tlbr => rcases tlbr_rows asked with memory | vAddr | half <;> simp_all
    | tlbw => rcases tlbw_rows asked with memory | vAddr <;> simp_all
    | tlbp => rcases tlbp_rows asked with memory | vAddr | tlbSet <;> simp_all
    | dctr => rcases dctr_rows asked with vAddr | dCache <;> simp_all
    | dctw => simp [dctw_rows asked]
    | intStore => simp [intStore_rows asked]
    | pageSizeChange => simp [pageSizeChange_rows asked]
    | asidChange => simp [asidChange_rows asked]
    | dmChange => exact absurd rfl asked
  -- Every instruction but the listed ones is plain; a listed one is itself the witness.
  case players =>
    cases i <;> simp_all [hazardRole]
  case recorded =>
    refine ⟨List.mem_cons_self, List.mem_cons_self, List.mem_cons_self, List.mem_cons_self, List.mem_cons_self,
      List.mem_cons_self, List.mem_cons_self, fun i link => ?_, fun i store => ?_, ?_, ?_, ?_⟩
    · rw [s.hazardKinds_of_link link, List.mem_singleton]
    · rw [s.hazardKinds_of_intStore store, List.mem_singleton]
    · simp [State.mem_hazardKinds_dmtc0, State.mem_changes]
    · simp [State.mem_hazardKinds_dmtc0, State.mem_changes]
    · simp [State.mem_hazardKinds_dmtc0, State.mem_changes]

end Sys2Proof.Machine
